-- ==== Sys2Proof/Word.lean ====
section
/-! DEFINITION. The plain words and numbers of the SX-6: bytes, wide integers of a frame body, and the
numbers that name a link, a window, a record or a barrier group. -/

namespace Sys2Proof

/-- One byte of a frame, or one character of a link (R134, R170). -/
abbrev Byte := BitVec 8

/-- A number of two bytes that the part keeps modulo 2^16: a handle (R21), the epoch (R160), a generation (R90). -/
abbrev Half := BitVec 16

/-- A number of four bytes: the token counter (R30) and the uptime (R125). -/
abbrev Word := BitVec 32

/-- Link and host numbers, 0 to 5. -/
abbrev LinkNo := Fin 6

/-- The window indices of one link, 0 to 3 (R6). -/
abbrev WindowNo := Fin 4

/-- Lock record numbers, 0 to 127 (R16). -/
abbrev RecNo := Fin 128

/-- Barrier group numbers, 0 to 7 (R89). -/
abbrev GroupNo := Fin 8

end Sys2Proof
end

