-- ==== Sys2Proof/Syntax.lean ====
section
/-! DEFINITION. The commands of the part: one constructor for each row of spec/opcode_table.json.

A command is one event of the part, whole and indivisible. Four groups:
* resets and the time base;
* expiries of deadlines, each naming the object whose deadline expires;
* events of one link's receiver and transmitter;
* requests: the dispatcher takes the frame of that kind, tag and body from the head of the named link's
  intake queue. -/

namespace Sys2Proof

/-- The commands, in the order of the table. `msel` and `astart` are the strap levels sampled in the event. -/
inductive Instr where
  /-- POWER_ON (R20, R158). -/
  | powerOn (msel : Fin 8) (astart : Bool)
  /-- RESET_N_ASSERT: the falling edge of RESET_N (R158). -/
  | resetNAssert
  /-- RESET_N_RELEASE: the rising edge of RESET_N (R158). -/
  | resetNRelease (msel : Fin 8) (astart : Bool)
  /-- UPTIME_TICK: the end of 18,432 CLKIN periods (R125). -/
  | uptimeTick
  /-- LEASE_DEADLINE_EXPIRY of a link's session (R114). -/
  | leaseDeadlineExpiry (link : LinkNo)
  /-- LOCK_WAIT_DEADLINE_EXPIRY of a WAITING record (R51). -/
  | lockWaitDeadlineExpiry (record : RecNo)
  /-- CONVERT_WAIT_DEADLINE_EXPIRY of a CONVERTING record (R66). -/
  | convertWaitDeadlineExpiry (record : RecNo)
  /-- WATCH_WAIT_DEADLINE_EXPIRY of a WATCHING record (R83). -/
  | watchWaitDeadlineExpiry (record : RecNo)
  /-- HOLD_DEADLINE_EXPIRY of a HELD or CONVERTING record (R70, R71). -/
  | holdDeadlineExpiry (record : RecNo)
  /-- ARRIVAL_DEADLINE_EXPIRY of a link's entry in a group's arrival list (R98). -/
  | arrivalDeadlineExpiry (group : GroupNo) (link : LinkNo)
  /-- GAP_TIMER_EXPIRY of a link's receiver (R137). -/
  | gapTimerExpiry (link : LinkNo)
  /-- LENGTH_FAULT: a whole character outside 2 to 58 in state LENGTH (R136). -/
  | lengthFault (link : LinkNo) (value : Byte)
  /-- STOP_BIT_FAULT: a character whose stop bit is low and which is no break (R138). -/
  | stopBitFault (link : LinkNo) (value : Byte)
  /-- FRAME_RECEIVED: the second check byte of a frame, received whole (R140). -/
  | frameReceived (link : LinkNo) (value : Byte)
  /-- BREAK_END: the receive line returns high after at least 20 bit times low (R143). -/
  | breakEnd (link : LinkNo)
  /-- FRAME_TRANSMIT_START: an idle transmitter takes the head entry (R144). -/
  | frameTransmitStart (link : LinkNo)
  /-- ENTRY_TRANSMITTED: the stop bit of the frame's last character is sent (R144). -/
  | entryTransmitted (link : LinkNo)
  /-- UNKNOWN_KIND_FRAME: the dispatcher takes a frame whose kind byte names no request (R153). -/
  | unknownKindFrame (link : LinkNo) (kind tag : Byte) (body : List Byte)
  /-- OPEN (R109). -/
  | openSession (link : LinkNo) (tag : Byte) (body : List Byte)
  /-- CLOSE (R110). -/
  | closeSession (link : LinkNo) (tag : Byte) (body : List Byte)
  /-- RENEW (R112). -/
  | renew (link : LinkNo) (tag : Byte) (body : List Byte)
  /-- STATUS (R169). -/
  | status (link : LinkNo) (tag : Byte) (body : List Byte)
  /-- ACQUIRE (R34). -/
  | acquire (link : LinkNo) (tag : Byte) (body : List Byte)
  /-- RELEASE (R56). -/
  | release (link : LinkNo) (tag : Byte) (body : List Byte)
  /-- CONVERT (R59). -/
  | convert (link : LinkNo) (tag : Byte) (body : List Byte)
  /-- CANCEL (R122). -/
  | cancel (link : LinkNo) (tag : Byte) (body : List Byte)
  /-- WATCH (R78). -/
  | watch (link : LinkNo) (tag : Byte) (body : List Byte)
  /-- QUERY (R87). -/
  | query (link : LinkNo) (tag : Byte) (body : List Byte)
  /-- ARRIVE (R92). -/
  | arrive (link : LinkNo) (tag : Byte) (body : List Byte)
  /-- SET_LINK (R162). -/
  | setLink (link : LinkNo) (tag : Byte) (body : List Byte)
  /-- SET_WINDOW (R163). -/
  | setWindow (link : LinkNo) (tag : Byte) (body : List Byte)
  /-- SET_GROUP (R164). -/
  | setGroup (link : LinkNo) (tag : Byte) (body : List Byte)
  /-- SET_FLOOR (R32). -/
  | setFloor (link : LinkNo) (tag : Byte) (body : List Byte)
  /-- START (R165). -/
  | start (link : LinkNo) (tag : Byte) (body : List Byte)
  /-- RESTART (R166). -/
  | restart (link : LinkNo) (tag : Byte) (body : List Byte)
  /-- PROFILE (R167). -/
  | profile (link : LinkNo) (tag : Byte) (body : List Byte)
  /-- EVICT (R168). -/
  | evict (link : LinkNo) (tag : Byte) (body : List Byte)
  /-- CHARACTER_RECEIVED_WHOLE: a character whose stop bit is sampled high (R136). -/
  | characterReceivedWhole (link : LinkNo) (value : Byte)
  /-- START_EDGE: a falling edge still low at the centre of the start bit (R134, R137). -/
  | startEdge (link : LinkNo)
  deriving DecidableEq, Repr

end Sys2Proof
end

