-- ==== Sys2Proof/Config.lean ====
section
/-! DEFINITION. The fixed sizes and limits of the part. The spec leaves no value open, so there is no free value here. -/

namespace Sys2Proof.Config

/-- Entries of one link's outbound queue, messages and reservations together (R148, R149). -/
def outboundEntries : Nat := 40

/-- Frames one intake queue holds (R140, R141). -/
def intakeRoom : Nat := 3

/-- Entries of one session's open-tag list; also the tag window that OPEN reports (R109, R119). -/
def openTagRoom : Nat := 16

/-- WAITING records at most (R28). -/
def waitListRoom : Nat := 64

/-- WATCHING records at most (R28). -/
def watchListRoom : Nat := 16

/-- The highest value of the token counter, at which no token is issued (R31). -/
def maxToken : Word := 0xFFFFFFFF

/-- CLKIN periods in one millisecond of uptime (R125). -/
def clkinPerMs : Nat := 18432

/-- The largest exponent of a block or window (R2, R6). -/
def maxExponent : Nat := 24

/-- The wait limit that waits without limit (R128). -/
def waitForever : Nat := 65535

/-- The mark byte that opens a frame (R136, Table 12-2). -/
def markByte : Byte := 0xA5

/-- Free outbound entries that a reserving kind needs before its frame is taken (R151). -/
def reservingNeed : Nat := 3

end Sys2Proof.Config
end

