-- ==== Sys2Proof/Machine/Types.lean ====
section
/-! DEFINITION. The kinds of state that the blocks of the part hold: blocks of keys, records, sessions, barrier groups,
the profile, messages, and the link units. Plain data throughout. -/

namespace Sys2Proof.Machine

/-! ### Key space (Chapter 1) -/

/-- The mode of a claim (R4). -/
inductive Mode where
  | shared
  | exclusive
  deriving DecidableEq, Repr

/-- 2^exp consecutive keys from `base` (R2). -/
structure Block where
  base : Nat
  exp : Nat
  deriving DecidableEq, Repr

/-- The access level of a window (R6); `noAccess` is the spec's NONE. -/
inductive Access where
  | noAccess
  | sharedOnly
  | full
  deriving DecidableEq, Repr

/-- One translation from local to global keys (R6). -/
structure Window where
  localBase : Nat
  exp : Nat
  globalBase : Nat
  access : Access
  deriving DecidableEq, Repr

/-! ### Time (Chapter 8) -/

/-- A point in uptime: a millisecond and the CLKIN periods counted within it. A deadline is held as its due point
(R126), placed so that the whole interval elapses first (R127). -/
structure Instant where
  ms : Word
  sub : Fin 18432
  deriving DecidableEq, Repr

/-! ### Lock records (Chapter 2) -/

/-- A hold limit whose deadline is armed: the limit in ms and the due point (R25). -/
structure Hold where
  limit : Nat
  due : Instant
  deriving DecidableEq, Repr

/-- The state of a record with exactly the fields that Table 2-1 gives as present in it. The hold reservation flag is
set exactly when a hold limit is present (R16), so it is read from that field. A CONVERTING record's mode field holds
SHARED (R16), so it is not stored. -/
inductive RecState where
  | free
  | waiting (owner : LinkNo) (block : Block) (mode : Mode) (tag : Byte) (waitDue : Option Instant) (holdLimit : Option Nat)
  | held (owner : LinkNo) (block : Block) (mode : Mode) (token : Word) (hold : Option Hold)
  | converting (owner : LinkNo) (block : Block) (token : Word) (tag : Byte) (waitDue : Option Instant) (hold : Option Hold)
  | watching (owner : LinkNo) (block : Block) (tag : Byte) (waitDue : Option Instant)
  deriving DecidableEq, Repr

/-- One record of the pool; its number is its place there (R16). -/
structure Record where
  reuse : BitVec 9
  state : RecState
  deriving DecidableEq, Repr

/-! ### Sessions and tags (Chapter 7) -/

/-- What an open tag names: its kind with its reference (R119). -/
inductive TagRef where
  | lockWait (record : RecNo)
  | convert (record : RecNo)
  | watch (record : RecNo)
  | arrival (group : GroupNo)
  deriving DecidableEq, Repr

/-- An entry of an open-tag list (R119). -/
structure OpenTag where
  tag : Byte
  ref : TagRef
  deriving DecidableEq, Repr

/-- The state of a session with the fields present in it (R108): OPEN holds a lease deadline and the epoch at open. -/
inductive SessState where
  | closed
  | opened (lease : Instant) (epoch : Half)
  | lapsed
  deriving DecidableEq, Repr

/-- One session (R108). Its session reservation stands in the link's reserved count. -/
structure Session where
  state : SessState
  tags : List OpenTag
  owned : Nat
  deriving DecidableEq, Repr

/-! ### Barrier groups (Chapter 6) -/

/-- When a round is complete (R89). -/
inductive GroupMode where
  | all
  | quorum
  deriving DecidableEq, Repr

/-- The definition of a group: bit n of `members` stands for link n (R89, R170). -/
structure GroupDef where
  members : BitVec 6
  mode : GroupMode
  k : Nat
  deriving DecidableEq, Repr

/-- An entry of an arrival list (R90). -/
structure Arrival where
  link : LinkNo
  tag : Byte
  due : Option Instant
  deriving DecidableEq, Repr

/-- The runtime state of a group; it is GATHERING exactly while the list holds an entry (R90). -/
structure Group where
  generation : Half
  arrivals : List Arrival
  deriving DecidableEq, Repr

/-! ### Profile and service control (Chapter 11) -/

/-- The six settings of a link (R161). -/
structure LinkSettings where
  enabled : Bool
  baud : Nat
  gap : Nat
  lease : Nat
  quota : Nat
  weight : Nat
  deriving DecidableEq, Repr

/-- The profile (R161). -/
structure Profile where
  links : Vector LinkSettings 6
  windows : Vector (Vector Window 4) 6
  groups : Vector GroupDef 8
  deriving DecidableEq, Repr

/-- The service state (R159). -/
inductive Service where
  | setup
  | service
  deriving DecidableEq, Repr

/-- The strap levels latched at the last reset (R158). -/
structure Straps where
  msel : Fin 8
  astart : Bool
  deriving DecidableEq, Repr

/-! ### Messages (Chapter 12) -/

/-- The refusal reasons of Table 12-7. -/
inductive Reason where
  | malformed | unknownKind | badTag | notInService | notManager | inService | noSession | sessionOpen | lapsed
  | dupTag | tagsFull | badBlock | outOfWindow | access | conflict | noRoom | quota | staleHandle | notHeld
  | sameMode | deadlock | notOpen | notMember | alreadyArrived | notReady | badValue | tokensSpent
  deriving DecidableEq, Repr

/-- Why a session ended, as ENDED tells it (Table 12-8). -/
inductive EndCause where
  | lapsed
  | evicted
  | restart
  deriving DecidableEq, Repr

/-- Why a round broke, as BROKEN tells it (Table 12-8). -/
inductive BreakCause where
  | memberLost
  | timeout
  deriving DecidableEq, Repr

/-- The five counters of a link unit (R145). -/
structure Counters where
  framing : Byte
  length : Byte
  check : Byte
  gap : Byte
  discard : Byte
  deriving DecidableEq, Repr

/-- Every message the part sends, with the values its body carries (Tables 12-5 and 12-6). -/
inductive Message where
  | doneOpen (epoch : Half) (counter : Word) (lease quota : Nat)
  /-- DONE with an empty body: CLOSE, WATCH (free now), SET_LINK, SET_WINDOW, SET_GROUP, RESTART, EVICT. -/
  | doneEmpty
  | doneRenew (lease : Nat)
  /-- `session` is the code of the session state (Table 12-1). -/
  | doneStatusLink (session tags owned free : Nat) (counters : Counters)
  | doneStatusPart (part : Service) (epoch : Half) (counter : Word) (inUse waiting watching : Nat) (uptime : Word)
  /-- DONE of ACQUIRE and of CONVERT. -/
  | doneHolding (handle : Half) (token : Word) (mode : Mode)
  | doneRelease (handle : Half) (token : Word)
  | doneCancel (target : Byte)
  | doneQuery (holdings : Nat) (exclusive : Bool) (waiters : Nat) (highest : Word)
  | doneArrive (group : GroupNo) (generation : Half) (rank count : Nat)
  | doneFloor (counter : Word)
  | doneStart (epoch : Half)
  | doneProfileLink (index : LinkNo) (settings : LinkSettings) (baud gap : Nat)
  | doneProfileWindow (index : Nat) (window : Window)
  | doneProfileGroup (index : GroupNo) (definition : GroupDef) (generation : Half) (arrivals : Nat)
  | doneProfileStraps (straps : Straps) (management : Option LinkNo) (autostart : Bool)
  /-- WAITING of ACQUIRE, CONVERT and WATCH. -/
  | waitingRecord (handle : Half) (position : Nat)
  | waitingArrive (group : GroupNo) (generation : Half) (count : Nat)
  | refused (reason : Reason) (detail : Byte)
  | granted (handle : Half) (token : Word) (mode : Mode)
  | timedOutRecord (handle : Half)
  | timedOutArrival (group : GroupNo) (generation : Half)
  | cancelledRecord (handle : Half)
  | cancelledArrival (group : GroupNo) (generation : Half)
  | passed (group : GroupNo) (generation : Half) (rank count : Nat)
  | broken (group : GroupNo) (generation : Half) (cause : BreakCause)
  | fired (handle : Half)
  | revoked (handle : Half) (token : Word)
  | ended (cause : EndCause)
  deriving DecidableEq, Repr

/-! ### Link units (Chapter 9) -/

/-- A received frame as the intake queue holds it (R141). -/
structure Frame where
  kind : Byte
  tag : Byte
  body : List Byte
  deriving DecidableEq, Repr

/-- The receiver with the frame it is assembling (R136). `length` is the length byte, `bytes` the kind, tag and body
bytes stored so far, `first` the first check byte once it is stored. -/
inductive Receiver where
  | hunt
  | length
  | body (length : Byte) (bytes : List Byte) (poisoned : Bool)
  | check (length : Byte) (bytes : List Byte) (first : Option Byte) (poisoned : Bool)
  deriving DecidableEq, Repr

/-- A message in the outbound queue. `adopts` marks the DONE of a SET_LINK that changed the management link's baud code
or gap limit: the adoption of R147 is made when this entry leaves the queue. -/
structure OutEntry where
  tag : Byte
  msg : Message
  adopts : Bool
  deriving DecidableEq, Repr

/-- The transmitter (R144). `place` counts the CLKIN periods since the first start bit of what it sends. -/
inductive Transmitter where
  | idle
  /-- A frame in transmission: the baud code taken when it began and its characters. -/
  | sending (baud : Nat) (chars : List Byte) (place : Nat)
  /-- The last character of a frame that a break has aborted (R143 step 3). -/
  | finishing (baud : Nat) (char : Byte) (place : Nat)
  deriving DecidableEq, Repr

/-- The gap timer (R137). `periods` counts the CLKIN periods since the end of the last character of the frame. -/
inductive GapTimer where
  | stopped
  | running (periods : Nat)
  /-- The receive line has been low since that character's stop bit (R138): the timer runs out only if the line returns high
  short of a break, which a later command tells (R137, R142; DESIGN CHOICE, log entry 14). -/
  | lineLow (periods : Nat)
  deriving DecidableEq, Repr

/-- One link unit. `inCharacter` says that a start edge has come whose character has not ended (R134); `outbound` has the
frame in transmission at its head (R144); `reserved` is the reserved count (R148); `baud` and `gap` are the adopted settings (R135). -/
structure LinkUnit where
  receiver : Receiver
  inCharacter : Bool
  gapTimer : GapTimer
  intake : List Frame
  outbound : List OutEntry
  reserved : Nat
  transmitter : Transmitter
  counters : Counters
  baud : Nat
  gap : Nat
  deriving DecidableEq, Repr

/-- The dispatcher's rotation state: the current link and the frames taken in its turn (R152). -/
structure Rotation where
  current : LinkNo
  taken : Nat
  deriving DecidableEq, Repr

end Sys2Proof.Machine
end

