-- ==== Sys2Proof/Machine/Operands.lean ====
section
/-! DEFINITION. The request kinds and the fields of their bodies (Tables 12-3 and 12-4), read as R170 says. -/

namespace Sys2Proof.Machine

/-- The nineteen request kinds (Table 12-3). -/
inductive ReqKind where
  | openSession | closeSession | renew | status
  | acquire | release | convert | cancel | watch | query
  | arrive
  | setLink | setWindow | setGroup | setFloor | start | restart | profile | evict
  deriving DecidableEq, Repr

/-- The kind codes (Table 12-3). -/
def ReqKind.code : ReqKind → Byte
  | .openSession => 0x01 | .closeSession => 0x02 | .renew => 0x03 | .status => 0x04
  | .acquire => 0x10 | .release => 0x11 | .convert => 0x12 | .cancel => 0x13 | .watch => 0x14 | .query => 0x15
  | .arrive => 0x20
  | .setLink => 0x30 | .setWindow => 0x31 | .setGroup => 0x32 | .setFloor => 0x33
  | .start => 0x34 | .restart => 0x35 | .profile => 0x36 | .evict => 0x37

/-- All request kinds. -/
def ReqKind.every : List ReqKind :=
  [.openSession, .closeSession, .renew, .status, .acquire, .release, .convert, .cancel, .watch, .query, .arrive,
   .setLink, .setWindow, .setGroup, .setFloor, .start, .restart, .profile, .evict]

/-- The request kind a code names, if it names one. -/
def ReqKind.ofCode (c : Byte) : Option ReqKind := ReqKind.every.find? (·.code = c)

/-- The body length of each kind (Table 12-4). -/
def ReqKind.bodyLength : ReqKind → Nat
  | .openSession | .closeSession | .renew | .start | .restart => 0
  | .status | .cancel | .evict => 1
  | .release | .profile => 2
  | .arrive => 3
  | .query | .setGroup | .setFloor => 4
  | .convert => 5
  | .watch => 6
  | .setLink => 8
  | .acquire => 9
  | .setWindow => 10

/-- The management requests (Table 10-2, step 4). -/
def ReqKind.isManagement : ReqKind → Bool
  | .setLink | .setWindow | .setGroup | .setFloor | .start | .restart | .profile | .evict => true
  | .openSession | .closeSession | .renew | .status | .acquire | .release | .convert | .cancel | .watch | .query
  | .arrive => false

/-- The kinds that SETUP alone admits (Table 10-2, step 5a). -/
def ReqKind.needsSetup : ReqKind → Bool
  | .setLink | .setWindow | .setGroup | .setFloor | .start => true
  | .restart | .profile | .evict | .openSession | .closeSession | .renew | .status | .acquire | .release | .convert
  | .cancel | .watch | .query | .arrive => false

/-- The kinds that SERVICE alone admits: EVICT, RESTART and every host kind other than STATUS (Table 10-2, step 5b). -/
def ReqKind.needsService : ReqKind → Bool
  | .evict | .restart | .openSession | .closeSession | .renew | .acquire | .release | .convert | .cancel | .watch
  | .query | .arrive => true
  | .status | .setLink | .setWindow | .setGroup | .setFloor | .start | .profile => false

/-- The host kinds other than OPEN, CLOSE and STATUS (Table 10-2, step 6). -/
def ReqKind.needsSession : ReqKind → Bool
  | .renew | .acquire | .release | .convert | .cancel | .watch | .query | .arrive => true
  | .openSession | .closeSession | .status | .setLink | .setWindow | .setGroup | .setFloor | .start | .restart
  | .profile | .evict => false

/-- The tag-opening kinds (Table 10-2, step 8). -/
def ReqKind.opensTag : ReqKind → Bool
  | .acquire | .convert | .watch | .arrive => true
  | .openSession | .closeSession | .renew | .status | .release | .cancel | .query | .setLink | .setWindow | .setGroup
  | .setFloor | .start | .restart | .profile | .evict => false

/-- The reserving kinds (R151). -/
def ReqKind.reserving : ReqKind → Bool
  | .openSession | .acquire | .convert | .watch | .arrive => true
  | .closeSession | .renew | .status | .release | .cancel | .query | .setLink | .setWindow | .setGroup | .setFloor
  | .start | .restart | .profile | .evict => false

/-- The free entries that a frame of this kind byte needs before it is taken; a code that names no request needs one
(R151). -/
def neededEntries (kind : Byte) : Nat :=
  match ReqKind.ofCode kind with
  | some k => if k.reserving then Config.reservingNeed else 1
  | none => 1

/-- Unsigned integer, most significant byte first (R170). -/
def fromBytes (bytes : List Byte) : Nat := bytes.foldl (fun n b => n * 256 + b.toNat) 0

/-- The field of `width` bytes at an offset of the body. -/
def fieldAt (body : List Byte) (offset width : Nat) : Nat := fromBytes ((body.drop offset).take width)

/-- The one-byte field at an offset of the body. -/
def byteAt (body : List Byte) (offset : Nat) : Byte := body.getD offset 0

/-- The mode a code names (Table 12-1). -/
def Mode.ofCode (c : Byte) : Option Mode := if c = 0 then some .shared else if c = 1 then some .exclusive else none

/-- The access level a code names (Table 12-1). -/
def Access.ofCode (c : Byte) : Option Access :=
  if c = 0 then some .noAccess else if c = 1 then some .sharedOnly else if c = 2 then some .full else none

/-- The group mode a code names (Table 12-1). -/
def GroupMode.ofCode (c : Byte) : Option GroupMode := if c = 0 then some .all else if c = 1 then some .quorum else none

/-- The link a number names, when it is 0 to 5. -/
def linkOf (n : Byte) : Option LinkNo := if h : n.toNat < 6 then some ⟨n.toNat, h⟩ else none

/-- The group a number names, when it is 0 to 7. -/
def groupOf (n : Byte) : Option GroupNo := if h : n.toNat < 8 then some ⟨n.toNat, h⟩ else none

/-- The window index a number names, when it is 0 to 3. -/
def windowOf (n : Byte) : Option WindowNo := if h : n.toNat < 4 then some ⟨n.toNat, h⟩ else none

/-- The fields of an ACQUIRE: key (3), exponent (1), mode (1), wait limit (2), hold limit (2). -/
structure AcquireReq where
  block : Block
  mode : Byte
  wait : Nat
  hold : Nat
  deriving DecidableEq, Repr

/-- ACQUIRE's body read by its layout. -/
def AcquireReq.ofBody (body : List Byte) : AcquireReq :=
  { block := { base := fieldAt body 0 3, exp := fieldAt body 3 1 }
    mode := byteAt body 4, wait := fieldAt body 5 2, hold := fieldAt body 7 2 }

/-- The fields of a CONVERT: handle (2), mode (1), wait limit (2). -/
structure ConvertReq where
  handle : Nat
  mode : Byte
  wait : Nat
  deriving DecidableEq, Repr

/-- CONVERT's body read by its layout. -/
def ConvertReq.ofBody (body : List Byte) : ConvertReq :=
  { handle := fieldAt body 0 2, mode := byteAt body 2, wait := fieldAt body 3 2 }

/-- The fields of a WATCH: key (3), exponent (1), wait limit (2). -/
structure WatchReq where
  block : Block
  wait : Nat
  deriving DecidableEq, Repr

/-- WATCH's body read by its layout. -/
def WatchReq.ofBody (body : List Byte) : WatchReq :=
  { block := { base := fieldAt body 0 3, exp := fieldAt body 3 1 }, wait := fieldAt body 4 2 }

/-- QUERY's body: key (3), exponent (1). -/
def queryBlock (body : List Byte) : Block := { base := fieldAt body 0 3, exp := fieldAt body 3 1 }

/-- The fields of an ARRIVE: group (1), wait limit (2). -/
structure ArriveReq where
  group : Byte
  wait : Nat
  deriving DecidableEq, Repr

/-- ARRIVE's body read by its layout. -/
def ArriveReq.ofBody (body : List Byte) : ArriveReq := { group := byteAt body 0, wait := fieldAt body 1 2 }

/-- The fields of a SET_LINK: link, enabled, baud code, gap limit (1 each), lease period (2), quota, weight (1 each). -/
structure SetLinkReq where
  link : Byte
  enabled : Byte
  baud : Nat
  gap : Nat
  lease : Nat
  quota : Nat
  weight : Nat
  deriving DecidableEq, Repr

/-- SET_LINK's body read by its layout. -/
def SetLinkReq.ofBody (body : List Byte) : SetLinkReq :=
  { link := byteAt body 0, enabled := byteAt body 1, baud := fieldAt body 2 1, gap := fieldAt body 3 1,
    lease := fieldAt body 4 2, quota := fieldAt body 6 1, weight := fieldAt body 7 1 }

/-- The fields of a SET_WINDOW: link (1), index (1), local base (3), exponent (1), global base (3), access (1). -/
structure SetWindowReq where
  link : Byte
  index : Byte
  localBase : Nat
  exp : Nat
  globalBase : Nat
  access : Byte
  deriving DecidableEq, Repr

/-- SET_WINDOW's body read by its layout. -/
def SetWindowReq.ofBody (body : List Byte) : SetWindowReq :=
  { link := byteAt body 0, index := byteAt body 1, localBase := fieldAt body 2 3, exp := fieldAt body 5 1,
    globalBase := fieldAt body 6 3, access := byteAt body 9 }

/-- The fields of a SET_GROUP: group, member set, mode, k (1 each). -/
structure SetGroupReq where
  group : Byte
  members : Byte
  mode : Byte
  k : Nat
  deriving DecidableEq, Repr

/-- SET_GROUP's body read by its layout. -/
def SetGroupReq.ofBody (body : List Byte) : SetGroupReq :=
  { group := byteAt body 0, members := byteAt body 1, mode := byteAt body 2, k := fieldAt body 3 1 }

end Sys2Proof.Machine
end

