-- ==== Sys2Proof/Machine/Blocks.lean ====
section
/-! DEFINITION. Blocks, overlap, conflict, and translation through a link's windows (Chapter 1). -/

namespace Sys2Proof.Machine

/-- A well-formed block: exponent 24 or less and an aligned base inside the key space (R2). -/
def Block.wellFormed (b : Block) : Bool := b.exp ≤ 24 && b.base < 2 ^ 24 && b.base % 2 ^ b.exp = 0

/-- Overlap: the bases divided by the larger size, rounded down, are equal (R3). -/
def Block.overlaps (a b : Block) : Bool := a.base / 2 ^ max a.exp b.exp = b.base / 2 ^ max a.exp b.exp

/-- Conflict of two claims: their blocks overlap and at least one is EXCLUSIVE (R5, Table 1-4). -/
def conflicts (a : Block) (m : Mode) (b : Block) (n : Mode) : Bool :=
  a.overlaps b && (m = .exclusive || n = .exclusive)

/-- The local range of the window contains the whole block: R11's one test on the two bases. -/
def Window.contains (w : Window) (b : Block) : Bool :=
  b.exp ≤ w.exp && b.base / 2 ^ w.exp = w.localBase / 2 ^ w.exp

/-- A window of access SHARED_ONLY or FULL whose local range contains the block (R11). -/
def Window.fits (w : Window) (b : Block) : Bool := w.access ≠ .noAccess && w.contains b

/-- Translation: the block keeps its size and its offset within the window (R13). -/
def Window.translate (w : Window) (b : Block) : Block :=
  { base := w.globalBase + (b.base - w.localBase), exp := b.exp }

/-- The window search: windows 0 to 3 in order, the first that fits (R11). -/
def findWindow (windows : Vector Window 4) (b : Block) : Option Window := windows.toList.find? (·.fits b)

end Sys2Proof.Machine
end

