-- ==== Sys2Proof/Machine/Defaults.lean ====
section
/-! DEFINITION. The values that power-on and RESET_N give each kind of state. -/

namespace Sys2Proof.Machine

/-- Enabled, baud code 4, gap limit 8, lease period 5000 ms, quota 32, weight 1 (R161). -/
def LinkSettings.atReset : LinkSettings :=
  { enabled := true, baud := 4, gap := 8, lease := 5000, quota := 32, weight := 1 }

/-- Window 0 after a reset: the whole key space, key for key, FULL (Table 1-5). -/
def Window.wholeSpace : Window := { localBase := 0, exp := 24, globalBase := 0, access := .full }

/-- Windows 1 to 3 after a reset (Table 1-5). -/
def Window.unused : Window := { localBase := 0, exp := 0, globalBase := 0, access := .noAccess }

/-- The four windows of a link after a reset (Table 1-5). -/
def windowsAtReset : Vector Window 4 := #v[Window.wholeSpace, Window.unused, Window.unused, Window.unused]

/-- Member set empty, mode ALL, k = 1 (R89). -/
def GroupDef.atReset : GroupDef := { members := 0, mode := .all, k := 1 }

/-- The default profile (R161). -/
def Profile.atReset : Profile :=
  { links := Vector.replicate 6 LinkSettings.atReset
    windows := Vector.replicate 6 windowsAtReset
    groups := Vector.replicate 8 GroupDef.atReset }

/-- IDLE, empty list, generation 0 (R107). -/
def Group.atReset : Group := { generation := 0, arrivals := [] }

/-- CLOSED, no open tag, no record owned (R108). -/
def Session.atReset : Session := { state := .closed, tags := [], owned := 0 }

/-- All five counters at 0 (R145). -/
def Counters.zero : Counters := { framing := 0, length := 0, check := 0, gap := 0, discard := 0 }

/-- Receiver in HUNT with its gap timer stopped, both queues empty, nothing reserved, transmitter idle, counters 0, code 4
and gap limit 8 adopted (R133, R135, R141, R144, R145, R148). -/
def LinkUnit.atReset : LinkUnit :=
  { receiver := .hunt, inCharacter := false, gapTimer := .stopped, intake := [], outbound := [], reserved := 0,
    transmitter := .idle, counters := Counters.zero, baud := 4, gap := 8 }

/-- FREE at reuse count 0 (R20, power-on). -/
def Record.atPowerOn : Record := { reuse := 0, state := .free }

/-- Current link 0, count 0 (R152). -/
def Rotation.atReset : Rotation := { current := 0, taken := 0 }

end Sys2Proof.Machine
end

