-- ==== Sys2Proof/Machine/State.lean ====
section
/-! DEFINITION. The state of the part, the reasons a step can stop, and the state after power-on. -/

namespace Sys2Proof.Machine

/-- Everything the spec gives the part to hold, and the queue of the commands that wait. -/
structure State where
  /-- RESET_N is held low (R158). -/
  resetHeld : Bool
  /-- The strap levels latched at the last reset (R158). -/
  straps : Straps
  /-- The service state (R159). -/
  service : Service
  /-- The epoch (R160). -/
  epoch : Half
  /-- The token counter: the last token issued (R30). -/
  tokens : Word
  /-- The millisecond count of the time base (R125). -/
  uptime : Word
  /-- The CLKIN periods counted within the current millisecond (R125). -/
  clkin : Fin 18432
  /-- The profile (R161). -/
  profile : Profile
  /-- The link units LU0 to LU5 (Chapter 9). -/
  links : Vector LinkUnit 6
  /-- The sessions, one for each link (R108). -/
  sessions : Vector Session 6
  /-- The lock record pool (R16). -/
  records : Vector Record 128
  /-- The order of the WAITING records, oldest first (R26). -/
  waitList : List RecNo
  /-- The order of the WATCHING records, oldest first (R27). -/
  watchList : List RecNo
  /-- The runtime state of the barrier groups (R90). -/
  groups : Vector Group 8
  /-- The dispatcher's rotation state (R152). -/
  rotation : Rotation
  /-- The commands that wait, first in, first out. This is the model's own field, not the spec's. -/
  pending : List Instr
  deriving DecidableEq, Repr

/-- The reasons for a fault. The spec names no event that stops the part, so there is none: this type is empty. -/
inductive Fault where
  deriving DecidableEq, Repr

/-- The reasons for a refusal. -/
inductive Refusal where
  /-- Raised only by an arm of `exec` whose command has no meaning yet; safe, since the model then stops. No arm does. -/
  | notModelled (mnemonic : String)
  deriving DecidableEq, Repr

/-- The state right after power-on (R20, R33, R89, R107, R108, R125, R135, R141, R144, R145, R148, R152, R158 to R161) with
MSEL strapped 0 and ASTART low, the straps of the worked sequence of section 13.6. DESIGN CHOICE (log entry 1): the spec
leaves the straps to the board; the command POWER_ON carries any others. -/
def State.reset : State :=
  { resetHeld := false
    straps := { msel := 0, astart := false }
    service := .setup
    epoch := 0
    tokens := 0
    uptime := 0
    clkin := 0
    profile := Profile.atReset
    links := Vector.replicate 6 LinkUnit.atReset
    sessions := Vector.replicate 6 Session.atReset
    records := Vector.replicate 128 Record.atPowerOn
    waitList := []
    watchList := []
    groups := Vector.replicate 8 Group.atReset
    rotation := Rotation.atReset
    pending := [] }

end Sys2Proof.Machine
end

