-- ==== Sys2Proof/Machine/Flags.lean ====
section
/-! DEFINITION. The views of the state that the spec names and that follow from what is stored: pins, counts, claims,
handles and the states of groups. -/

namespace Sys2Proof.Machine

/-! ### Straps and pins -/

/-- The management link: the MSEL value when it is 0 to 5, none at 6 and 7 (R158, Table 11-1). -/
def Straps.management (p : Straps) : Option LinkNo := if h : p.msel.val < 6 then some ⟨p.msel.val, h⟩ else none

/-- Autostart applies when ASTART was high or MSEL was 6 or 7 (R158). -/
def Straps.autostart (p : Straps) : Bool := p.astart || p.management.isNone

/-- The management link latched at the last reset (R158). -/
def State.management (s : State) : Option LinkNo := s.straps.management

/-- The level of the RUN pin: high in SERVICE, low in SETUP and while RESET_N is held low (R159). -/
def State.run (s : State) : Bool := s.service = .service && !s.resetHeld

/-! ### Reading one object -/

/-- Link unit n. -/
def State.link (s : State) (l : LinkNo) : LinkUnit := s.links.get l

/-- The session of link n. -/
def State.session (s : State) (l : LinkNo) : Session := s.sessions.get l

/-- A record of the pool. -/
def State.record (s : State) (i : RecNo) : Record := s.records.get i

/-- The runtime state of a group. -/
def State.group (s : State) (g : GroupNo) : Group := s.groups.get g

/-- The profile's settings of a link. -/
def State.settings (s : State) (l : LinkNo) : LinkSettings := s.profile.links.get l

/-- The profile's four windows of a link. -/
def State.windows (s : State) (l : LinkNo) : Vector Window 4 := s.profile.windows.get l

/-- The profile's definition of a group. -/
def State.groupDef (s : State) (g : GroupNo) : GroupDef := s.profile.groups.get g

/-! ### Link units -/

/-- The queued count: messages in the outbound queue, the frame in transmission included (R148). -/
def LinkUnit.queued (u : LinkUnit) : Nat := u.outbound.length

/-- The free entries: 40 minus the queued count minus the reserved count (R148). -/
def LinkUnit.free (u : LinkUnit) : Nat := Config.outboundEntries - u.queued - u.reserved

/-- A frame is in transmission. -/
def LinkUnit.isSending (u : LinkUnit) : Bool :=
  match u.transmitter with
  | .sending .. => true
  | .idle | .finishing .. => false

/-! ### Sessions -/

/-- The session is OPEN. -/
def Session.isOpen (x : Session) : Bool :=
  match x.state with
  | .opened _ _ => true
  | .closed | .lapsed => false

/-- The open-tag entry of a tag, if it is open (R119, R122). -/
def Session.lookup (x : Session) (tag : Byte) : Option OpenTag := x.tags.find? (·.tag = tag)

/-! ### Records -/

/-- The owner of a record that is not FREE (Table 2-1). -/
def RecState.owner : RecState → Option LinkNo
  | .free => none
  | .waiting o .. | .held o .. | .converting o .. | .watching o .. => some o

/-- The claim of a record as a blocker: its block and claim mode (R4, Table 1-3). -/
def RecState.claim : RecState → Option (Block × Mode)
  | .waiting _ b m .. | .held _ b m .. => some (b, m)
  | .converting _ b .. => some (b, .exclusive)
  | .free | .watching .. => none

/-- The claim of a holding, HELD or CONVERTING; none for any other record. -/
def RecState.holding : RecState → Option (Block × Mode)
  | .held _ b m .. => some (b, m)
  | .converting _ b .. => some (b, .exclusive)
  | .free | .waiting .. | .watching .. => none

/-- The token of a holding (Table 2-1). -/
def RecState.token : RecState → Option Word
  | .held _ _ _ t _ | .converting _ _ t .. => some t
  | .free | .waiting .. | .watching .. => none

/-- The hold reservation flag: set exactly when the hold limit is present (R16). -/
def RecState.holdReserved : RecState → Bool
  | .waiting _ _ _ _ _ h => h.isSome
  | .held _ _ _ _ h | .converting _ _ _ _ _ h => h.isSome
  | .free | .watching .. => false

/-- The record is WAITING. -/
def RecState.isWaiting : RecState → Bool
  | .waiting .. => true
  | .free | .held .. | .converting .. | .watching .. => false

/-- The record is CONVERTING: a member of the convert set (R27). -/
def RecState.isConverting : RecState → Bool
  | .converting .. => true
  | .free | .waiting .. | .held .. | .watching .. => false

/-- The record is WATCHING. -/
def RecState.isWatching : RecState → Bool
  | .watching .. => true
  | .free | .waiting .. | .held .. | .converting .. => false

/-- The handle: record number plus 128 times the reuse count (R21). -/
def handleOf (i : RecNo) (reuse : BitVec 9) : Half := BitVec.ofNat 16 (i.val + 128 * reuse.toNat)

/-- The handle of a record of the pool (R21). -/
def State.handle (s : State) (i : RecNo) : Half := handleOf i (s.record i).reuse

/-- How many records satisfy a test. -/
def State.countRecords (s : State) (p : RecState → Bool) : Nat := s.records.toList.countP (fun r => p r.state)

/-- The lowest-numbered FREE record (R18). -/
def State.lowestFree (s : State) : Option RecNo := (List.finRange 128).find? (fun i => (s.record i).state = .free)

/-! ### Groups -/

/-- The link is in the member set (R89). -/
def GroupDef.has (d : GroupDef) (l : LinkNo) : Bool := d.members.getLsbD l.val

/-- The group is GATHERING: its arrival list holds at least one entry (R90). -/
def Group.gathering (g : Group) : Bool := g.arrivals ≠ []

/-- The link is a live member of the group: a member whose session is OPEN (R91). -/
def State.isLive (s : State) (g : GroupNo) (l : LinkNo) : Bool := (s.groupDef g).has l && (s.session l).isOpen

/-! ### Time -/

/-- The present point in uptime. -/
def State.now (s : State) : Instant := { ms := s.uptime, sub := s.clkin }

/-- The due point of a deadline armed now at an interval in ms: the uptime plus the interval modulo 2^32, at the same
place within the millisecond, so that the whole interval elapses (R126, R127). -/
def State.due (s : State) (interval : Nat) : Instant := { ms := s.uptime + BitVec.ofNat 32 interval, sub := s.clkin }

/-- The due point lies at or before now. Intervals are far below half the range of the uptime (R126), so a difference
below half the range is one that has elapsed, also across the wrap of R125. -/
def State.reached (s : State) (d : Instant) : Bool :=
  let past := s.uptime - d.ms
  past.toNat < 2 ^ 31 && (past ≠ 0 || d.sub ≤ s.clkin)

/-- A wait limit arms a deadline when it is 1 to 65,534 (R128). -/
def State.waitDue (s : State) (limit : Nat) : Option Instant :=
  if limit = 0 || limit = Config.waitForever then none else some (s.due limit)

/-- A hold limit is present when it is not 0 (R129). -/
def holdLimitOf (limit : Nat) : Option Nat := if limit = 0 then none else some limit

/-- The hold limit of a record that becomes HELD, with its deadline armed (R25, R39). -/
def State.armHold (s : State) (limit : Option Nat) : Option Hold :=
  limit.map fun n => { limit := n, due := s.due n }

/-! ### Holdings against a block -/

/-- The new claim conflicts with the claim of this record, if it has one (R5). -/
def RecState.blocks (x : RecState) (b : Block) (m : Mode) : Bool :=
  match x.claim with
  | some (c, n) => conflicts b m c n
  | none => false

/-- The record is a holding that overlaps the block (R3). -/
def RecState.holdsOver (x : RecState) (b : Block) : Bool :=
  match x.holding with
  | some (c, _) => b.overlaps c
  | none => false

/-- The record is a holding that conflicts with the claim (R5). -/
def RecState.holdsAgainst (x : RecState) (b : Block) (m : Mode) : Bool :=
  match x.holding with
  | some (c, n) => conflicts b m c n
  | none => false

/-- R35's decision: the claim conflicts with some HELD, CONVERTING or WAITING record. -/
def State.claimConflicts (s : State) (b : Block) (m : Mode) : Bool :=
  s.records.toList.any (fun r => r.state.blocks b m)

/-- Some holding overlaps the block (R79, R82). -/
def State.heldOver (s : State) (b : Block) : Bool := s.records.toList.any (fun r => r.state.holdsOver b)

/-- Some holding conflicts with the claim (R45). -/
def State.heldAgainst (s : State) (b : Block) (m : Mode) : Bool :=
  s.records.toList.any (fun r => r.state.holdsAgainst b m)

/-- Some holding other than record `i` overlaps the block (R44, R61). -/
def State.otherHeldOver (s : State) (i : RecNo) (b : Block) : Bool :=
  (List.finRange 128).any fun j => j ≠ i && (s.record j).state.holdsOver b

/-- Some CONVERTING record other than `i` overlaps the block (R62). -/
def State.otherConvertingOver (s : State) (i : RecNo) (b : Block) : Bool :=
  (List.finRange 128).any fun j => j ≠ i && (s.record j).state.isConverting && (s.record j).state.holdsOver b

end Sys2Proof.Machine
end

