-- ==== Sys2Proof/Machine/Messages.lean ====
section
/-! DEFINITION. How messages travel: kind codes, bodies, codes of reasons and causes (Chapter 12), the check of a frame
(R139) and the characters of a frame (R134, R144). -/

namespace Sys2Proof.Machine

/-- The code of a mode (Table 12-1). -/
def Mode.code : Mode → Nat
  | .shared => 0
  | .exclusive => 1

/-- The code of an access level (Table 12-1). -/
def Access.code : Access → Nat
  | .noAccess => 0
  | .sharedOnly => 1
  | .full => 2

/-- The code of a group mode (Table 12-1). -/
def GroupMode.code : GroupMode → Nat
  | .all => 0
  | .quorum => 1

/-- The code of a session state (Table 12-1). -/
def SessState.code : SessState → Nat
  | .closed => 0
  | .opened _ _ => 1
  | .lapsed => 2

/-- The code of a service state (Table 12-1). -/
def Service.code : Service → Nat
  | .setup => 0
  | .service => 1

/-- The refusal reasons' codes (Table 12-7). -/
def Reason.code : Reason → Nat
  | .malformed => 1 | .unknownKind => 2 | .badTag => 3 | .notInService => 4 | .notManager => 5 | .inService => 6
  | .noSession => 7 | .sessionOpen => 8 | .lapsed => 9 | .dupTag => 10 | .tagsFull => 11 | .badBlock => 12
  | .outOfWindow => 13 | .access => 14 | .conflict => 15 | .noRoom => 16 | .quota => 17 | .staleHandle => 18
  | .notHeld => 19 | .sameMode => 20 | .deadlock => 21 | .notOpen => 22 | .notMember => 23 | .alreadyArrived => 24
  | .notReady => 25 | .badValue => 26 | .tokensSpent => 27

/-- ENDED's cause codes (Table 12-8). -/
def EndCause.code : EndCause → Nat
  | .lapsed => 1
  | .evicted => 2
  | .restart => 3

/-- BROKEN's cause codes (Table 12-8). -/
def BreakCause.code : BreakCause → Nat
  | .memberLost => 1
  | .timeout => 2

/-- The management link as PROFILE reports it: its number, or 255 for none (Table 12-1). -/
def managementCode : Option LinkNo → Nat
  | some l => l.val
  | none => 255

/-- An unsigned integer in `width` bytes, most significant first (R170). -/
def toBytes : (width : Nat) → Nat → List Byte
  | 0, _ => []
  | w + 1, n => BitVec.ofNat 8 (n / 256 ^ w) :: toBytes w n

/-- The kind code of a message (Table 12-3). -/
def Message.kind : Message → Byte
  | .doneOpen .. | .doneEmpty | .doneRenew .. | .doneStatusLink .. | .doneStatusPart .. | .doneHolding ..
  | .doneRelease .. | .doneCancel .. | .doneQuery .. | .doneArrive .. | .doneFloor .. | .doneStart ..
  | .doneProfileLink .. | .doneProfileWindow .. | .doneProfileGroup .. | .doneProfileStraps .. => 0x81
  | .waitingRecord .. | .waitingArrive .. => 0x82
  | .refused .. => 0x83
  | .granted .. => 0xC1
  | .timedOutRecord .. | .timedOutArrival .. => 0xC2
  | .cancelledRecord .. | .cancelledArrival .. => 0xC3
  | .passed .. => 0xC4
  | .broken .. => 0xC5
  | .fired .. => 0xC6
  | .revoked .. => 0xC7
  | .ended .. => 0xC8

/-- The body of a message (Tables 12-5 and 12-6). -/
def Message.body : Message → List Byte
  | .doneOpen epoch counter lease quota =>
      toBytes 2 epoch.toNat ++ toBytes 4 counter.toNat ++ toBytes 2 lease ++ toBytes 1 Config.openTagRoom ++ toBytes 1 quota
  | .doneEmpty => []
  | .doneRenew lease => toBytes 2 lease
  | .doneStatusLink session tags owned free c =>
      toBytes 1 0 ++ toBytes 1 session ++ toBytes 1 tags ++ toBytes 1 owned ++ toBytes 1 free ++
        [c.framing, c.length, c.check, c.gap, c.discard]
  | .doneStatusPart part epoch counter inUse waiting watching uptime =>
      toBytes 1 1 ++ toBytes 1 part.code ++ toBytes 2 epoch.toNat ++ toBytes 4 counter.toNat ++ toBytes 1 inUse ++
        toBytes 1 waiting ++ toBytes 1 watching ++ toBytes 4 uptime.toNat
  | .doneHolding handle token mode => toBytes 2 handle.toNat ++ toBytes 4 token.toNat ++ toBytes 1 mode.code
  | .doneRelease handle token => toBytes 2 handle.toNat ++ toBytes 4 token.toNat
  | .doneCancel target => [target]
  | .doneQuery holdings exclusive waiters highest =>
      toBytes 1 holdings ++ toBytes 1 exclusive.toNat ++ toBytes 1 waiters ++ toBytes 4 highest.toNat
  | .doneArrive group generation rank count =>
      toBytes 1 group.val ++ toBytes 2 generation.toNat ++ toBytes 1 rank ++ toBytes 1 count
  | .doneFloor counter => toBytes 4 counter.toNat
  | .doneStart epoch => toBytes 2 epoch.toNat
  | .doneProfileLink index p baud gap =>
      toBytes 1 0 ++ toBytes 1 index.val ++ toBytes 1 p.enabled.toNat ++ toBytes 1 p.baud ++ toBytes 1 p.gap ++
        toBytes 2 p.lease ++ toBytes 1 p.quota ++ toBytes 1 p.weight ++ toBytes 1 baud ++ toBytes 1 gap
  | .doneProfileWindow index w =>
      toBytes 1 1 ++ toBytes 1 index ++ toBytes 3 w.localBase ++ toBytes 1 w.exp ++ toBytes 3 w.globalBase ++
        toBytes 1 w.access.code
  | .doneProfileGroup index d generation arrivals =>
      toBytes 1 2 ++ toBytes 1 index.val ++ toBytes 1 d.members.toNat ++ toBytes 1 d.mode.code ++ toBytes 1 d.k ++
        toBytes 2 generation.toNat ++ toBytes 1 (decide (arrivals ≠ 0)).toNat ++ toBytes 1 arrivals
  | .doneProfileStraps straps management autostart =>
      toBytes 1 3 ++ toBytes 1 0 ++ toBytes 1 straps.msel.val ++ toBytes 1 straps.astart.toNat ++
        toBytes 1 (managementCode management) ++ toBytes 1 autostart.toNat
  | .waitingRecord handle position => toBytes 2 handle.toNat ++ toBytes 1 position
  | .waitingArrive group generation count => toBytes 1 group.val ++ toBytes 2 generation.toNat ++ toBytes 1 count
  | .refused reason detail => toBytes 1 reason.code ++ [detail]
  | .granted handle token mode => toBytes 2 handle.toNat ++ toBytes 4 token.toNat ++ toBytes 1 mode.code
  | .timedOutRecord handle | .cancelledRecord handle | .fired handle => toBytes 2 handle.toNat
  | .timedOutArrival group generation | .cancelledArrival group generation =>
      toBytes 1 group.val ++ toBytes 2 generation.toNat
  | .passed group generation rank count =>
      toBytes 1 group.val ++ toBytes 2 generation.toNat ++ toBytes 1 rank ++ toBytes 1 count
  | .broken group generation cause => toBytes 1 group.val ++ toBytes 2 generation.toNat ++ toBytes 1 cause.code
  | .revoked handle token => toBytes 2 handle.toNat ++ toBytes 4 token.toNat
  | .ended cause => toBytes 1 cause.code

/-! ### The check of a frame (R139) -/

/-- One bit of a byte taken into the check register: the bit is combined with the register's most significant bit, the
register shifts left, and 0x1021 is combined in when the combined bit was 1. -/
def checkBit (register : BitVec 16) (bit : Bool) : BitVec 16 :=
  if (register.msb ^^ bit) then (register <<< 1) ^^^ 0x1021 else register <<< 1

/-- One byte taken into the check register, from its most significant bit down. -/
def checkByte (register : BitVec 16) (b : Byte) : BitVec 16 :=
  [7, 6, 5, 4, 3, 2, 1, 0].foldl (fun r i => checkBit r (b.getLsbD i)) register

/-- The check over the length, kind, tag and body bytes, preset to all ones (R139). -/
def checkOf (bytes : List Byte) : BitVec 16 := bytes.foldl checkByte 0xFFFF

/-! ### Characters -/

/-- The characters of a frame: mark, length, kind, tag, body, and the check with its more significant byte first
(Table 12-2, R144). -/
def frameChars (kind tag : Byte) (body : List Byte) : List Byte :=
  let covered := BitVec.ofNat 8 (2 + body.length) :: kind :: tag :: body
  Config.markByte :: covered ++ toBytes 2 (checkOf covered).toNat

/-- The characters that send an outbound entry. -/
def OutEntry.chars (e : OutEntry) : List Byte := frameChars e.msg.kind e.tag e.msg.body

/-- The ten bit levels of one character: a low start bit, the data bits least significant first, a high stop bit (R134,
Figure 9-1). -/
def characterBits (b : Byte) : List Bool :=
  false :: [0, 1, 2, 3, 4, 5, 6, 7].map (fun i => b.getLsbD i) ++ [true]

/-- The divisor of 1.152 MHz of a baud code, 0 to 7 (Table 9-1). -/
def baudDivisor (code : Nat) : Nat := [120, 60, 30, 20, 10, 5, 2, 1].getD code 10

/-- CLKIN periods in one bit time of a baud code: 16 times the divisor (R135). -/
def bitPeriods (code : Nat) : Nat := 16 * baudDivisor code

/-- CLKIN periods in one character time, ten bit times (R134, R135). -/
def charPeriods (code : Nat) : Nat := 10 * bitPeriods code

/-- CLKIN periods in the gap limit that a link unit has adopted, a count of character times at its adopted code (R137). -/
def LinkUnit.gapPeriods (u : LinkUnit) : Nat := u.gap * charPeriods u.baud

/-- The level a transmitter gives its line: high at rest, else the bit of the character at its place (R134, R144). -/
def Transmitter.level : Transmitter → Bool
  | .idle => true
  | .sending baud chars place => (chars.flatMap characterBits).getD (place / bitPeriods baud) true
  | .finishing baud char place => (characterBits char).getD (place / bitPeriods baud) true

/-- The level of a link's transmit line, TXD0 to TXD5: high at rest and while RESET_N is held low (R134, R144, R158). -/
def State.txd (s : State) (l : LinkNo) : Bool := s.resetHeld || (s.link l).transmitter.level

end Sys2Proof.Machine
end

