-- ==== Sys2Proof/Machine/Ops.lean ====
section
/-! DEFINITION. The named operations over the state: on link units and the outbound account, on the open-tag list, and on
the record pool. Every command is written over these. -/

namespace Sys2Proof.Machine

/-! ### Writing one object -/

/-- Link unit n replaced. -/
def State.putLink (s : State) (l : LinkNo) (u : LinkUnit) : State := { s with links := s.links.set l u }

/-- The session of link n replaced. -/
def State.putSession (s : State) (l : LinkNo) (x : Session) : State := { s with sessions := s.sessions.set l x }

/-- A record replaced. -/
def State.putRecord (s : State) (i : RecNo) (r : Record) : State := { s with records := s.records.set i r }

/-- A group's runtime state replaced. -/
def State.putGroup (s : State) (g : GroupNo) (x : Group) : State := { s with groups := s.groups.set g x }

/-- A record's state replaced, its reuse count kept. -/
def State.putState (s : State) (i : RecNo) (x : RecState) : State :=
  s.putRecord i { s.record i with state := x }

/-- A function applied to every entry of a vector. -/
def mapVector {α β : Type} {n : Nat} (f : α → β) (v : Vector α n) : Vector β n :=
  ⟨⟨v.toList.map f⟩, by simp⟩

/-! ### The outbound account (R148, R150) -/

/-- A message queued into a free entry of the link: every reply is (Table 10-1). -/
def queueFree (l : LinkNo) (e : OutEntry) (s : State) : State :=
  s.putLink l { s.link l with outbound := (s.link l).outbound ++ [e] }

/-- A notice queued into a reservation of the link: the queued count rises and the reserved count falls (R148). -/
def queueReserved (l : LinkNo) (tag : Byte) (m : Message) (s : State) : State :=
  s.putLink l { s.link l with
    outbound := (s.link l).outbound ++ [{ tag := tag, msg := m, adopts := false }]
    reserved := (s.link l).reserved - 1 }

/-- A reservation set aside from the free entries of the link. -/
def reserve (l : LinkNo) (s : State) : State :=
  s.putLink l { s.link l with reserved := (s.link l).reserved + 1 }

/-- A reservation returned to the free entries without a notice. -/
def unreserve (l : LinkNo) (s : State) : State :=
  s.putLink l { s.link l with reserved := (s.link l).reserved - 1 }

/-- A reply to the request with this tag (R155). -/
def reply (l : LinkNo) (tag : Byte) (m : Message) (s : State) : State :=
  queueFree l { tag := tag, msg := m, adopts := false } s

/-- A REFUSED reply (R171). -/
def refuse (l : LinkNo) (tag : Byte) (reason : Reason) (detail : Byte) (s : State) : State :=
  reply l tag (.refused reason detail) s

/-! ### Adoption, flush and clearing (R147, R156, R143) -/

/-- The link unit adopts the baud code and gap limit of the profile. When they equal the adopted settings nothing changes;
otherwise the frame in assembly is abandoned uncounted and both settings take their new values (R147). A character in
reception goes on and is judged in HUNT at its end: DESIGN CHOICE, log entry 13. -/
def adopt (l : LinkNo) (s : State) : State :=
  let p := s.settings l
  let u := s.link l
  if u.baud = p.baud && u.gap = p.gap then s
  else s.putLink l { u with receiver := .hunt, gapTimer := .stopped, baud := p.baud, gap := p.gap }

/-- The entries that a flush keeps: the frame in transmission alone (R156). -/
def LinkUnit.keptByFlush (u : LinkUnit) : List OutEntry := if u.isSending then u.outbound.take 1 else []

/-- The entries that a flush discards. -/
def LinkUnit.lostByFlush (u : LinkUnit) : List OutEntry := if u.isSending then u.outbound.drop 1 else u.outbound

/-- The flush of a link whose session lapses, is evicted or ends in a RESTART: the frame in transmission stays, the rest
is discarded, the reserved count is set to the session reservation, and a discarded SET_LINK DONE makes its adoption
(R156, R147). -/
def flush (l : LinkNo) (s : State) : State :=
  let u := s.link l
  let t := s.putLink l { u with outbound := u.keptByFlush, reserved := 1 }
  if u.lostByFlush.any (·.adopts) then adopt l t else t

/-! ### The open-tag list (R119 to R121) -/

/-- A tag opens: its entry joins the tail of the list and one free entry becomes reserved (R120). -/
def openTag (l : LinkNo) (tag : Byte) (ref : TagRef) (s : State) : State :=
  reserve l (s.putSession l { s.session l with tags := (s.session l).tags ++ [{ tag := tag, ref := ref }] })

/-- A tag closes: its final notice is queued into its reservation and its entry leaves the list (R121). -/
def closeTag (l : LinkNo) (tag : Byte) (m : Message) (s : State) : State :=
  let t := queueReserved l tag m s
  t.putSession l { t.session l with tags := (t.session l).tags.filter (·.tag ≠ tag) }

/-! ### The record pool (R18, R19, R28 to R31) -/

/-- The room test of R29, its list test chosen by the outcome. -/
def roomTest (l : LinkNo) (listFull : Bool) (s : State) : Option Reason :=
  if (s.session l).owned = (s.settings l).quota then some .quota
  else if s.lowestFree = none then some .noRoom
  else if listFull then some .noRoom
  else none

/-- 64 records are WAITING (R29 step 3). -/
def State.waitListFull (s : State) : Bool := Config.waitListRoom ≤ s.waitList.length

/-- 16 records are WATCHING (R29 step 4). -/
def State.watchListFull (s : State) : Bool := Config.watchListRoom ≤ s.watchList.length

/-- A FREE record is taken into a working state for a link, whose count of records owned rises (R18, R28). -/
def allocate (i : RecNo) (l : LinkNo) (x : RecState) (s : State) : State :=
  let t := s.putState i x
  t.putSession l { t.session l with owned := (t.session l).owned + 1 }

/-- The owner's count of records owned falls by one (R19 step 5). -/
def disown (owner : Option LinkNo) (s : State) : State :=
  match owner with
  | some l => s.putSession l { s.session l with owned := (s.session l).owned - 1 }
  | none => s

/-- A record that is not FREE returns to FREE: the reuse count is incremented modulo 512, it leaves its list, its fields
become absent and the owner's count falls (R19). A FREE record is left as it is. -/
def freeRecord (i : RecNo) (s : State) : State :=
  let r := s.record i
  if r.state = .free then s
  else
    let t := disown r.state.owner s
    { t.putRecord i { reuse := r.reuse + 1, state := .free } with
      waitList := t.waitList.filter (· ≠ i)
      watchList := t.watchList.filter (· ≠ i) }

/-- The hold reservation of a record that was in state `x`, if it had one, returns to its owner's free entries (R150). -/
def returnHold (x : RecState) (s : State) : State :=
  match x.owner with
  | some l => if x.holdReserved then unreserve l s else s
  | none => s

/-- The next token (R30). -/
def State.nextToken (s : State) : Word := s.tokens + 1

/-- The token counter stands at its maximum (R31). -/
def State.tokensSpent (s : State) : Bool := s.tokens = Config.maxToken

/-- The next token is issued: the counter is raised by one (R30). -/
def issueToken (s : State) : State := { s with tokens := s.nextToken }

/-- The token a record keeps, 0 where it has none. -/
def RecState.tokenOr0 (x : RecState) : Word := x.token.getD 0

end Sys2Proof.Machine
end

