-- ==== Sys2Proof/Machine/Dispatcher.lean ====
section
/-! DEFINITION. The request dispatcher: which frame it takes (R151, R152) and the common checks (R153, R154). -/

namespace Sys2Proof.Machine

/-- The head frame of the link's intake queue is eligible: the link is enabled and has the free entries that the frame's
kind needs (R151). -/
def State.eligible (s : State) (l : LinkNo) : Bool :=
  (s.settings l).enabled &&
    match (s.link l).intake with
    | [] => false
    | f :: _ => neededEntries f.kind ≤ (s.link l).free

/-- The links after `c` in increasing number, 5 being followed by 0, ending with `c` itself (R152 step 2). -/
def linksAfter (c : LinkNo) : List LinkNo := [c + 1, c + 2, c + 3, c + 4, c + 5, c]

/-- The rotation state after the dispatcher's next choice, none when no head is eligible; the frame taken is the head of
the new current link (R152). -/
def State.nextTurn (s : State) : Option Rotation :=
  let c := s.rotation.current
  if s.eligible c && s.rotation.taken < (s.settings c).weight then some { current := c, taken := s.rotation.taken + 1 }
  else ((linksAfter c).find? s.eligible).map fun l => { current := l, taken := 1 }

/-- The dispatcher takes the frame `f` from link `l`: it does so when its choice is link `l` and `f` stands at the head
there. The frame leaves the queue and the rotation state moves. None when this event does not come about (log entry 2). -/
def take (l : LinkNo) (f : Frame) (s : State) : Option State :=
  match s.resetHeld, s.nextTurn, (s.link l).intake with
  | false, some turn, g :: rest =>
      if turn.current = l ∧ g = f then
        some { s.putLink l { s.link l with intake := rest } with rotation := turn }
      else none
  | _, _, _ => none

/-- The first entry of a list of tests that fails. -/
def firstFailure {α : Type} : List (Bool × α) → Option α
  | [] => none
  | (failed, a) :: rest => if failed then some a else firstFailure rest

/-- Steps 2 to 8 of Table 10-2, in order: the reason of the first that fails (R153). -/
def commonChecks (k : ReqKind) (l : LinkNo) (tag : Byte) (body : List Byte) (s : State) : Option Reason :=
  firstFailure
    [ (tag = 0, .badTag),
      (body.length ≠ k.bodyLength, .malformed),
      (k.isManagement && s.management ≠ some l, .notManager),
      (k.needsSetup && s.service = .service, .inService),
      (k.needsService && s.service = .setup, .notInService),
      (k.needsSession && (s.session l).state = .closed, .noSession),
      (k.needsSession && (s.session l).state = .lapsed, .lapsed),
      (((s.session l).lookup tag).isSome, .dupTag),
      (k.opensTag && Config.openTagRoom ≤ (s.session l).tags.length, .tagsFull) ]

/-- A request of kind `k`: the dispatcher takes its frame, the common checks refuse it or hand it to its owner (R153,
R154). When the event does not come about the state is left as it is (log entry 2). -/
def serve (k : ReqKind) (l : LinkNo) (tag : Byte) (body : List Byte) (owner : State → State) (s : State) :
    Host.Outcome State Fault Refusal :=
  match take l { kind := k.code, tag := tag, body := body } s with
  | none => .next s
  | some t =>
    match commonChecks k l tag body t with
    | some reason => .next (refuse l tag reason 0 t)
    | none => .next (owner t)

/-- UNKNOWN_KIND_FRAME: a taken frame whose kind byte is not a request kind code is refused UNKNOWN_KIND with detail 0
(R153 step 1, R154). -/
def execUnknownKindFrame (l : LinkNo) (kind tag : Byte) (body : List Byte) (s : State) :
    Host.Outcome State Fault Refusal :=
  match ReqKind.ofCode kind, take l { kind := kind, tag := tag, body := body } s with
  | none, some t => .next (refuse l tag .unknownKind 0 t)
  | _, _ => .next s

end Sys2Proof.Machine
end

