-- ==== Sys2Proof/Machine/Scan.lean ====
section
/-! DEFINITION. The grant scan of the lock engine: the converter phase, the wait-list phase and the watch phase
(R42 to R49, R82). -/

namespace Sys2Proof.Machine

/-- A CONVERTING record is granted: HELD EXCLUSIVE with the next token, its wait deadline disarmed, its hold deadline running
on; GRANTED fills the tag's reservation and the tag closes (R44). -/
def grantConverter (i : RecNo) (o : LinkNo) (b : Block) (tag : Byte) (hold : Option Hold) (s : State) : State :=
  let t := issueToken (s.putState i (.held o b .exclusive s.nextToken hold))
  closeTag o tag (.granted (s.handle i) s.nextToken .exclusive) t

/-- The examination of one record in the converter phase: a CONVERTING record that no other holding overlaps is granted,
unless the tokens are spent (R44, R48). -/
def examineConverter (s : State) (i : RecNo) : State :=
  match (s.record i).state with
  | .converting o b _ tag _ hold =>
      if s.tokensSpent || s.otherHeldOver i b then s else grantConverter i o b tag hold s
  | .free | .waiting .. | .held .. | .watching .. => s

/-- The converter phase: the convert set in increasing record number (R44). -/
def converterPhase (s : State) : State := (List.finRange 128).foldl examineConverter s

/-- A WAITING record is granted: HELD in its requested mode with the next token, out of the wait list, its wait deadline
disarmed and its hold deadline armed; GRANTED fills the tag's reservation and the tag closes (R46). -/
def grantWaiter (i : RecNo) (o : LinkNo) (b : Block) (m : Mode) (tag : Byte) (holdLimit : Option Nat) (s : State) :
    State :=
  let t := issueToken (s.putState i (.held o b m s.nextToken (s.armHold holdLimit)))
  closeTag o tag (.granted (s.handle i) s.nextToken m) { t with waitList := t.waitList.filter (· ≠ i) }

/-- Some of the earlier records, still WAITING, conflicts with the claim (R45). -/
def State.earlierAgainst (s : State) (earlier : List RecNo) (b : Block) (m : Mode) : Bool :=
  earlier.any fun j => (s.record j).state.isWaiting && (s.record j).state.blocks b m

/-- The wait-list phase over the records still to be examined, `earlier` being the ones that have stayed WAITING in this
phase, oldest first (R45, R48). -/
def waitPhase : (toExamine earlier : List RecNo) → State → State
  | [], _, s => s
  | i :: rest, earlier, s =>
    match (s.record i).state with
    | .waiting o b m tag _ holdLimit =>
        if s.tokensSpent || s.heldAgainst b m || s.earlierAgainst earlier b m then waitPhase rest (earlier ++ [i]) s
        else waitPhase rest earlier (grantWaiter i o b m tag holdLimit s)
    | .free | .held .. | .converting .. | .watching .. => waitPhase rest earlier s

/-- A WATCHING record fires: FIRED fills the tag's reservation, the tag closes and the record returns to FREE (R82). -/
def fireWatch (i : RecNo) (o : LinkNo) (tag : Byte) (s : State) : State :=
  freeRecord i (closeTag o tag (.fired (s.handle i)) s)

/-- The examination of one record in the watch phase: a WATCHING record whose block no holding overlaps fires (R47). -/
def examineWatch (s : State) (i : RecNo) : State :=
  match (s.record i).state with
  | .watching o b tag _ => if s.heldOver b then s else fireWatch i o tag s
  | .free | .waiting .. | .held .. | .converting .. => s

/-- The watch phase: the watch list, oldest first (R47). -/
def watchPhase (s : State) : State := s.watchList.foldl examineWatch s

/-- The grant scan: its three phases in order, each meeting the pool as it stands (R43). -/
def grantScan (s : State) : State :=
  let c := converterPhase s
  watchPhase (waitPhase c.waitList [] c)

end Sys2Proof.Machine
end

