-- ==== Sys2Proof/Machine/LockEngine.lean ====
section
/-! DEFINITION. The lock engine: ACQUIRE, RELEASE, CONVERT, WATCH, QUERY, SET_FLOOR, the expiries of its deadlines, its
cancellations and its reclaim (Chapters 2 to 5). -/

namespace Sys2Proof.Machine

/-! ### Checks shared by requests that name a block (R10) -/

/-- Steps 1 and 2 of R10: the exponent, then the alignment of the key; the refusal's reason and detail. -/
def blockFault (b : Block) : Option (Reason × Byte) :=
  firstFailure
    [ (Config.maxExponent < b.exp, (.badBlock, 2)),
      (b.base % 2 ^ b.exp ≠ 0, (.badBlock, 1)) ]

/-- The block and window checks of WATCH and QUERY: R10 without steps 3 and 6. -/
def admitBlock (l : LinkNo) (b : Block) (s : State) : Except (Reason × Byte) Block :=
  match blockFault b with
  | some f => .error f
  | none =>
    match findWindow (s.windows l) b with
    | none => .error (.outOfWindow, 0)
    | some w => .ok (w.translate b)

/-- The block, mode and window checks of ACQUIRE: R10 whole. -/
def admitAcquire (l : LinkNo) (b : Block) (mode : Byte) (s : State) : Except (Reason × Byte) (Block × Mode) :=
  match blockFault b, Mode.ofCode mode with
  | some f, _ => .error f
  | none, none => .error (.badValue, 3)
  | none, some m =>
    match findWindow (s.windows l) b with
    | none => .error (.outOfWindow, 0)
    | some w => if m = .exclusive ∧ w.access = .sharedOnly then .error (.access, 3) else .ok (w.translate b, m)

/-! ### ACQUIRE (R34 to R40) -/

/-- The hold reservation of a record made with a hold limit (R25). -/
def reserveHold (l : LinkNo) (holdLimit : Option Nat) (s : State) : State :=
  if holdLimit.isSome then reserve l s else s

/-- Grant at once (R36). -/
def grantAtOnce (l : LinkNo) (tag : Byte) (b : Block) (m : Mode) (hold : Nat) (s : State) : State :=
  match roomTest l false s, s.lowestFree with
  | some r, _ => refuse l tag r 0 s
  | none, none => refuse l tag .noRoom 0 s
  | none, some i =>
    if s.tokensSpent then refuse l tag .tokensSpent 0 s
    else
      let t := issueToken (allocate i l (.held l b m s.nextToken (s.armHold (holdLimitOf hold))) s)
      reply l tag (.doneHolding (s.handle i) s.nextToken m) (reserveHold l (holdLimitOf hold) t)

/-- Entry to the wait list (R38). -/
def enterWaitList (l : LinkNo) (tag : Byte) (b : Block) (m : Mode) (wait hold : Nat) (s : State) : State :=
  match roomTest l s.waitListFull s, s.lowestFree with
  | some r, _ => refuse l tag r 0 s
  | none, none => refuse l tag .noRoom 0 s
  | none, some i =>
    let t := allocate i l (.waiting l b m tag (s.waitDue wait) (holdLimitOf hold)) s
    let t := openTag l tag (.lockWait i) { t with waitList := t.waitList ++ [i] }
    reply l tag (.waitingRecord (s.handle i) t.waitList.length) (reserveHold l (holdLimitOf hold) t)

/-- ACQUIRE once the common checks have passed (R34). -/
def acquire (l : LinkNo) (tag : Byte) (body : List Byte) (s : State) : State :=
  let q := AcquireReq.ofBody body
  match admitAcquire l q.block q.mode s with
  | .error (r, d) => refuse l tag r d s
  | .ok (b, m) =>
    if s.claimConflicts b m then
      if q.wait = 0 then refuse l tag .conflict 0 s else enterWaitList l tag b m q.wait q.hold s
    else grantAtOnce l tag b m q.hold s

/-- ACQUIRE (R34). -/
def execAcquire (l : LinkNo) (tag : Byte) (body : List Byte) (s : State) : Host.Outcome State Fault Refusal :=
  serve .acquire l tag body (acquire l tag body) s

/-! ### RELEASE (R56 to R58) -/

/-- The record a valid handle names: not FREE, of the handle's reuse count, owned by the requesting link (R22). -/
def State.named (s : State) (l : LinkNo) (handle : Nat) : Option RecNo :=
  let i : RecNo := Fin.ofNat 128 handle
  let r := s.record i
  if r.state.owner = some l ∧ r.reuse.toNat = handle / 128 then some i else none

/-- A holding is freed and its hold reservation returns (R57 steps 2 and 3). -/
def freeHolding (i : RecNo) (s : State) : State := returnHold (s.record i).state (freeRecord i s)

/-- The pending conversion of a CONVERTING record is concluded with CANCELLED; the record itself is then freed by the
same event (R58 step 1, R71 step 1). -/
def concludeConversion (i : RecNo) (s : State) : State :=
  match (s.record i).state with
  | .converting o _ _ tag _ _ => closeTag o tag (.cancelledRecord (s.handle i)) s
  | .free | .waiting .. | .held .. | .watching .. => s

/-- RELEASE once the common checks have passed (R56). -/
def release (l : LinkNo) (tag : Byte) (body : List Byte) (s : State) : State :=
  match s.named l (fieldAt body 0 2) with
  | none => refuse l tag .staleHandle 1 s
  | some i =>
    match (s.record i).state with
    | .held _ _ _ token _ | .converting _ _ token _ _ _ =>
        reply l tag (.doneRelease (s.handle i) token) (grantScan (freeHolding i (concludeConversion i s)))
    | .free | .waiting .. | .watching .. => refuse l tag .notHeld 0 s

/-- RELEASE (R56). -/
def execRelease (l : LinkNo) (tag : Byte) (body : List Byte) (s : State) : Host.Outcome State Fault Refusal :=
  serve .release l tag body (release l tag body) s

/-! ### CONVERT (R59 to R64) -/

/-- The upgrade of a HELD SHARED record (R61 to R64). -/
def upgrade (l : LinkNo) (tag : Byte) (i : RecNo) (o : LinkNo) (b : Block) (token : Word) (hold : Option Hold) (wait : Nat)
    (s : State) : State :=
  if s.otherHeldOver i b then
    if s.otherConvertingOver i b then refuse l tag .deadlock 0 s
    else if wait = 0 then refuse l tag .conflict 0 s
    else
      let t := openTag l tag (.convert i) (s.putState i (.converting o b token tag (s.waitDue wait) hold))
      reply l tag (.waitingRecord (s.handle i) 0) t
  else if s.tokensSpent then refuse l tag .tokensSpent 0 s
  else
    reply l tag (.doneHolding (s.handle i) s.nextToken .exclusive)
      (issueToken (s.putState i (.held o b .exclusive s.nextToken hold)))

/-- CONVERT once the common checks have passed (R59, R60). -/
def convert (l : LinkNo) (tag : Byte) (body : List Byte) (s : State) : State :=
  let q := ConvertReq.ofBody body
  match s.named l q.handle with
  | none => refuse l tag .staleHandle 1 s
  | some i =>
    match Mode.ofCode q.mode, (s.record i).state with
    | none, _ => refuse l tag .badValue 2 s
    | some target, .held o b mode token hold =>
        if target = mode then refuse l tag .sameMode 2 s
        else
          match target with
          | .shared =>
              reply l tag (.doneHolding (s.handle i) token .shared)
                (grantScan (s.putState i (.held o b .shared token hold)))
          | .exclusive => upgrade l tag i o b token hold q.wait s
    | some _, _ => refuse l tag .notHeld 0 s

/-- CONVERT (R59). -/
def execConvert (l : LinkNo) (tag : Byte) (body : List Byte) (s : State) : Host.Outcome State Fault Refusal :=
  serve .convert l tag body (convert l tag body) s

/-! ### WATCH (R78 to R81) -/

/-- Entry to the watch list (R81). -/
def enterWatchList (l : LinkNo) (tag : Byte) (b : Block) (wait : Nat) (s : State) : State :=
  match roomTest l s.watchListFull s, s.lowestFree with
  | some r, _ => refuse l tag r 0 s
  | none, none => refuse l tag .noRoom 0 s
  | none, some i =>
    let t := allocate i l (.watching l b tag (s.waitDue wait)) s
    let t := openTag l tag (.watch i) { t with watchList := t.watchList ++ [i] }
    reply l tag (.waitingRecord (s.handle i) t.watchList.length) t

/-- WATCH once the common checks have passed (R78 to R80). -/
def watch (l : LinkNo) (tag : Byte) (body : List Byte) (s : State) : State :=
  let q := WatchReq.ofBody body
  match admitBlock l q.block s with
  | .error (r, d) => refuse l tag r d s
  | .ok b =>
    if s.heldOver b then
      if q.wait = 0 then refuse l tag .conflict 0 s else enterWatchList l tag b q.wait s
    else reply l tag .doneEmpty s

/-- WATCH (R78). -/
def execWatch (l : LinkNo) (tag : Byte) (body : List Byte) (s : State) : Host.Outcome State Fault Refusal :=
  serve .watch l tag body (watch l tag body) s

/-! ### QUERY (R87, R88) -/

/-- A holding that overlaps the block and claims EXCLUSIVE: HELD EXCLUSIVE or CONVERTING (R88). -/
def RecState.exclusiveOver (x : RecState) (b : Block) : Bool :=
  match x.holding with
  | some (c, m) => b.overlaps c && m = .exclusive
  | none => false

/-- A WAITING record, of either mode, whose block overlaps (R88). -/
def RecState.waitsOver (x : RecState) (b : Block) : Bool :=
  match x with
  | .waiting _ c .. => b.overlaps c
  | .free | .held .. | .converting .. | .watching .. => false

/-- The greatest token among the holdings that overlap the block, 0 when there is none (R88). -/
def State.highestToken (s : State) (b : Block) : Word :=
  s.records.toList.foldl (fun h r => if r.state.holdsOver b ∧ h < r.state.tokenOr0 then r.state.tokenOr0 else h) 0

/-- The four values of a QUERY's answer (R88). -/
def queryAnswer (b : Block) (s : State) : Message :=
  .doneQuery (s.countRecords (·.holdsOver b)) (s.records.toList.any (fun r => r.state.exclusiveOver b))
    (s.countRecords (·.waitsOver b)) (s.highestToken b)

/-- QUERY once the common checks have passed (R87). -/
def query (l : LinkNo) (tag : Byte) (body : List Byte) (s : State) : State :=
  match admitBlock l (queryBlock body) s with
  | .error (r, d) => refuse l tag r d s
  | .ok b => reply l tag (queryAnswer b s) s

/-- QUERY (R87). -/
def execQuery (l : LinkNo) (tag : Byte) (body : List Byte) (s : State) : Host.Outcome State Fault Refusal :=
  serve .query l tag body (query l tag body) s

/-! ### SET_FLOOR (R32) -/

/-- SET_FLOOR once the common checks have passed: the counter becomes the greater of itself and the floor (R32). -/
def setFloor (l : LinkNo) (tag : Byte) (body : List Byte) (s : State) : State :=
  let floor := BitVec.ofNat 32 (fieldAt body 0 4)
  let t : State := if s.tokens < floor then { s with tokens := floor } else s
  reply l tag (.doneFloor t.tokens) t

/-- SET_FLOOR (R32). -/
def execSetFloor (l : LinkNo) (tag : Byte) (body : List Byte) (s : State) : Host.Outcome State Fault Refusal :=
  serve .setFloor l tag body (setFloor l tag body) s

/-! ### Cancellations, without the scan that may follow (R53, R67, R84) -/

/-- A WAITING record is freed with a final notice, its tag closes and its hold reservation returns (R51, R53 steps 1 to 4). -/
def endLockWait (i : RecNo) (notice : Half → Message) (s : State) : State :=
  match (s.record i).state with
  | .waiting o _ _ tag _ _ =>
      returnHold (s.record i).state (closeTag o tag (notice (s.handle i)) (freeRecord i s))
  | .free | .held .. | .converting .. | .watching .. => s

/-- A CONVERTING record returns to HELD SHARED with its token and its running hold deadline; a final notice is queued and
the tag closes (R66, R67 steps 1 to 4). -/
def endConversion (i : RecNo) (notice : Half → Message) (s : State) : State :=
  match (s.record i).state with
  | .converting o b token tag _ hold =>
      closeTag o tag (notice (s.handle i)) (s.putState i (.held o b .shared token hold))
  | .free | .waiting .. | .held .. | .watching .. => s

/-- A WATCHING record's final notice is queued, its tag closes and the record is freed (R83, R84 steps 1 to 3). -/
def endWatch (i : RecNo) (notice : Half → Message) (s : State) : State :=
  match (s.record i).state with
  | .watching o _ tag _ => freeRecord i (closeTag o tag (notice (s.handle i)) s)
  | .free | .waiting .. | .held .. | .converting .. => s

/-! ### Expiries (R51, R66, R83, R70, R71) -/

/-- The wait deadline of a record that waits, converts or watches. -/
def RecState.waitDeadline : RecState → Option Instant
  | .waiting _ _ _ _ d _ | .converting _ _ _ _ d _ | .watching _ _ _ d => d
  | .free | .held .. => none

/-- The hold deadline of a holding. -/
def RecState.holdDeadline : RecState → Option Instant
  | .held _ _ _ _ h | .converting _ _ _ _ _ h => h.map (·.due)
  | .free | .waiting .. | .watching .. => none

/-- A deadline may expire now: it is armed and has fallen due (R126, R127), and RESET_N is not held (R158). -/
def State.expires (s : State) (d : Option Instant) : Bool :=
  !s.resetHeld &&
    match d with
    | some d => s.reached d
    | none => false

/-- The expiry of a record's wait deadline, as the record's state has it (R51, R66, R83). -/
def expireWait (i : RecNo) (s : State) : State :=
  match (s.record i).state with
  | .waiting .. => grantScan (endLockWait i .timedOutRecord s)
  | .converting .. => grantScan (endConversion i .timedOutRecord s)
  | .watching .. => grantScan (endWatch i .timedOutRecord s)
  | .free | .held .. => s

/-- LOCK_WAIT_DEADLINE_EXPIRY (R51). -/
def execLockWaitDeadlineExpiry (i : RecNo) (s : State) : Host.Outcome State Fault Refusal :=
  if (s.record i).state.isWaiting && s.expires (s.record i).state.waitDeadline then .next (expireWait i s) else .next s

/-- CONVERT_WAIT_DEADLINE_EXPIRY (R66). -/
def execConvertWaitDeadlineExpiry (i : RecNo) (s : State) : Host.Outcome State Fault Refusal :=
  if (s.record i).state.isConverting && s.expires (s.record i).state.waitDeadline then .next (expireWait i s)
  else .next s

/-- WATCH_WAIT_DEADLINE_EXPIRY (R83). -/
def execWatchWaitDeadlineExpiry (i : RecNo) (s : State) : Host.Outcome State Fault Refusal :=
  if (s.record i).state.isWatching && s.expires (s.record i).state.waitDeadline then .next (expireWait i s) else .next s

/-- A holding is revoked: freed, and REVOKED with tag 0 queued into its hold reservation (R70 steps 1 to 3). -/
def revoke (i : RecNo) (s : State) : State :=
  match (s.record i).state with
  | .held o _ _ token _ | .converting o _ token _ _ _ =>
      queueReserved o 0 (.revoked (s.handle i) token) (freeRecord i s)
  | .free | .waiting .. | .watching .. => s

/-- The expiry of a hold deadline: a pending conversion is concluded first (R71), then the holding is revoked (R70) and the
scan runs once. -/
def expireHold (i : RecNo) (s : State) : State := grantScan (revoke i (concludeConversion i s))

/-- HOLD_DEADLINE_EXPIRY (R70, R71). -/
def execHoldDeadlineExpiry (i : RecNo) (s : State) : Host.Outcome State Fault Refusal :=
  if s.expires (s.record i).state.holdDeadline then .next (expireHold i s) else .next s

/-! ### Reclaim (R74 to R77) -/

/-- Every record of the link returns to FREE without notice, in increasing record number; `freeOne` frees one. -/
def freeOwned (freeOne : RecNo → State → State) (l : LinkNo) (s : State) : State :=
  (List.finRange 128).foldl (fun t i => if (t.record i).state.owner = some l then freeOne i t else t) s

/-- The reclaim of a failure end: every record of the link is freed silently, then one grant scan runs (R74, R75). -/
def reclaimFailed (l : LinkNo) (s : State) : State := grantScan (freeOwned freeRecord l s)

/-- The reclaim of a CLOSE: the remaining holdings are freed, their hold reservations return, one grant scan runs (R76). -/
def reclaimClosed (l : LinkNo) (s : State) : State := grantScan (freeOwned freeHolding l s)

/-- A record in use freed by a reset, its reuse count incremented once (R20). -/
def Record.afterReset (r : Record) : Record :=
  if r.state = .free then r else { reuse := r.reuse + 1, state := .free }

/-- The pool cleared at a RESET_N or a RESTART: every record FREE, the lists empty, every count of records owned 0, no
notice and no scan (R20, R77). -/
def clearPool (s : State) : State :=
  { s with
    records := mapVector Record.afterReset s.records
    waitList := []
    watchList := []
    sessions := mapVector (fun x => { x with owned := 0 }) s.sessions }

end Sys2Proof.Machine
end

