-- ==== Sys2Proof/Machine/Barrier.lean ====
section
/-! DEFINITION. The barrier unit: ARRIVE, completion and breaking of rounds, withdrawals and departures (Chapter 6). -/

namespace Sys2Proof.Machine

/-- The link has an entry in the list. -/
def hasArrived (arrivals : List Arrival) (l : LinkNo) : Bool := arrivals.any (·.link = l)

/-- Every live member of the group is in the list, or is the link `also` (R93, R105). -/
def State.allArrived (s : State) (g : GroupNo) (also : Option LinkNo) : Bool :=
  (List.finRange 6).all fun l => !s.isLive g l || hasArrived (s.group g).arrivals l || also = some l

/-- R93's completion test of an ARRIVE on link `l`. -/
def State.completes (s : State) (g : GroupNo) (l : LinkNo) : Bool :=
  match (s.groupDef g).mode with
  | .all => s.allArrived g (some l)
  | .quorum => (s.group g).arrivals.length + 1 = (s.groupDef g).k

/-- A final notice to every entry of a list in order, the first at `rank`, each closing its tag. -/
def notifyArrivals (notice : Nat → Message) : (rank : Nat) → List Arrival → State → State
  | _, [], s => s
  | rank, a :: rest, s => notifyArrivals notice (rank + 1) rest (closeTag a.link a.tag (notice rank) s)

/-- The list empties, so that the group is IDLE, and the generation advances modulo 2^16 (R90). -/
def endRound (g : GroupNo) (s : State) : State :=
  s.putGroup g { generation := (s.group g).generation + 1, arrivals := [] }

/-- A round completes with `count` arrivals: PASSED to every entry, oldest first (R94, R105). -/
def passRound (g : GroupNo) (count : Nat) (s : State) : State :=
  let x := s.group g
  endRound g (notifyArrivals (fun rank => .passed g x.generation rank count) 1 x.arrivals s)

/-- A round breaks: BROKEN with the cause to the entries of `others`, oldest first (R98, R103). -/
def breakRound (g : GroupNo) (cause : BreakCause) (others : List Arrival) (s : State) : State :=
  let gen := (s.group g).generation
  endRound g (notifyArrivals (fun _ => .broken g gen cause) 1 others s)

/-- An ARRIVE that does not complete and may wait is appended (R96). -/
def appendArrival (l : LinkNo) (tag : Byte) (g : GroupNo) (wait : Nat) (s : State) : State :=
  let x := s.group g
  let list := x.arrivals ++ [{ link := l, tag := tag, due := s.waitDue wait }]
  reply l tag (.waitingArrive g x.generation list.length)
    (openTag l tag (.arrival g) (s.putGroup g { x with arrivals := list }))

/-- ARRIVE once the common checks have passed (R92 to R96). -/
def arrive (l : LinkNo) (tag : Byte) (body : List Byte) (s : State) : State :=
  let q := ArriveReq.ofBody body
  match groupOf q.group with
  | none => refuse l tag .badValue 1 s
  | some g =>
    if !(s.groupDef g).has l then refuse l tag .notMember 0 s
    else if hasArrived (s.group g).arrivals l then refuse l tag .alreadyArrived 0 s
    else if s.completes g l then
      let c := (s.group g).arrivals.length + 1
      reply l tag (.doneArrive g (s.group g).generation c c) (passRound g c s)
    else if q.wait = 0 then refuse l tag .notReady 0 s
    else appendArrival l tag g q.wait s

/-- ARRIVE (R92). -/
def execArrive (l : LinkNo) (tag : Byte) (body : List Byte) (s : State) : Host.Outcome State Fault Refusal :=
  serve .arrive l tag body (arrive l tag body) s

/-- The expiry of an entry's arrival deadline: TIMED_OUT to it, BROKEN (TIMEOUT) to every other entry, and the round ends
(R98). -/
def expireArrival (g : GroupNo) (a : Arrival) (s : State) : State :=
  let x := s.group g
  breakRound g .timeout (x.arrivals.filter (·.link ≠ a.link))
    (closeTag a.link a.tag (.timedOutArrival g x.generation) s)

/-- ARRIVAL_DEADLINE_EXPIRY of link `l`'s entry in group `g` (R98). -/
def execArrivalDeadlineExpiry (g : GroupNo) (l : LinkNo) (s : State) : Host.Outcome State Fault Refusal :=
  match (s.group g).arrivals.find? (·.link = l) with
  | some a => if s.expires a.due then .next (expireArrival g a s) else .next s
  | none => .next s

/-- A withdrawal: CANCELLED closes the tag and the entry leaves the list; the generation stays (R101). -/
def withdraw (l : LinkNo) (tag : Byte) (g : GroupNo) (s : State) : State :=
  let x := s.group g
  let t := closeTag l tag (.cancelledArrival g x.generation) s
  t.putGroup g { x with arrivals := x.arrivals.filter (·.link ≠ l) }

/-- A failure end of link `l` at one group: its entry is dropped silently and a gathering round is broken with
MEMBER_LOST (R103). -/
def departGroup (l : LinkNo) (s : State) (g : GroupNo) : State :=
  if (s.groupDef g).has l && (s.group g).gathering then
    breakRound g .memberLost ((s.group g).arrivals.filter (·.link ≠ l)) s
  else s

/-- The failure departure of link `l`, its groups in increasing number (R103). -/
def depart (l : LinkNo) (s : State) : State := (List.finRange 8).foldl (departGroup l) s

/-- The re-test of one group after link `l` has closed: a gathering round in mode ALL completes when every live member has
arrived (R105). -/
def retestGroup (l : LinkNo) (s : State) (g : GroupNo) : State :=
  if (s.groupDef g).mode = .all && (s.groupDef g).has l && (s.group g).gathering && s.allArrived g none then
    passRound g (s.group g).arrivals.length s
  else s

/-- The re-test of the groups after link `l` has closed, in increasing number (R105). -/
def retest (l : LinkNo) (s : State) : State := (List.finRange 8).foldl (retestGroup l) s

/-- Every arrival list emptied, every group IDLE, every generation 0, without notice (R107). -/
def clearGroups (s : State) : State := { s with groups := Vector.replicate 8 Group.atReset }

end Sys2Proof.Machine
end

