-- ==== Sys2Proof/Machine/Sessions.lean ====
section
/-! DEFINITION. The session table: OPEN, CLOSE, RENEW, CANCEL, leases, and the ends of sessions (Chapter 7). -/

namespace Sys2Proof.Machine

/-- The session state of link `l` replaced. -/
def putSessState (l : LinkNo) (x : SessState) (s : State) : State :=
  s.putSession l { s.session l with state := x }

/-- The open-tag list of link `l` emptied silently (R121). -/
def dropTags (l : LinkNo) (s : State) : State := s.putSession l { s.session l with tags := [] }

/-! ### OPEN (R109) -/

/-- A CLOSED session opens: the epoch is recorded, the lease armed, the session reservation taken (R109). Live members
are read from the session states (R91), so the announcement to the barrier unit changes nothing further (R106). -/
def openUp (l : LinkNo) (s : State) : State :=
  reserve l (putSessState l (.opened (s.due (s.settings l).lease) s.epoch) s)

/-- OPEN once the common checks have passed (R109). -/
def openSession (l : LinkNo) (tag : Byte) (_body : List Byte) (s : State) : State :=
  match (s.session l).state with
  | .opened _ _ => refuse l tag .sessionOpen 0 s
  | .lapsed => refuse l tag .lapsed 0 s
  | .closed => reply l tag (.doneOpen s.epoch s.tokens (s.settings l).lease (s.settings l).quota) (openUp l s)

/-- OPEN (R109). -/
def execOpenSession (l : LinkNo) (tag : Byte) (body : List Byte) (s : State) : Host.Outcome State Fault Refusal :=
  serve .openSession l tag body (openSession l tag body) s

/-! ### CANCEL (R122) -/

/-- The owner of an open tag cancels it, without the scan: R53, R67, R84 or R101. -/
def cancelEntry (l : LinkNo) (x : OpenTag) (s : State) : State :=
  match x.ref with
  | .lockWait i => endLockWait i .cancelledRecord s
  | .convert i => endConversion i .cancelledRecord s
  | .watch i => endWatch i .cancelledRecord s
  | .arrival g => withdraw l x.tag g s

/-- The scan that a cancellation runs: the lock engine's cancellations run one, a withdrawal runs none (R53, R67, R84,
R101). -/
def scanAfterCancel (x : TagRef) (s : State) : State :=
  match x with
  | .lockWait _ | .convert _ | .watch _ => grantScan s
  | .arrival _ => s

/-- CANCEL once the common checks have passed (R122). -/
def cancel (l : LinkNo) (tag : Byte) (body : List Byte) (s : State) : State :=
  match (s.session l).lookup (byteAt body 0) with
  | none => refuse l tag .notOpen 1 s
  | some x => reply l tag (.doneCancel (byteAt body 0)) (scanAfterCancel x.ref (cancelEntry l x s))

/-- CANCEL (R122). -/
def execCancel (l : LinkNo) (tag : Byte) (body : List Byte) (s : State) : Host.Outcome State Fault Refusal :=
  serve .cancel l tag body (cancel l tag body) s

/-! ### CLOSE (R110, R111) -/

/-- The close sequence of an OPEN session up to its reply (R111 steps 1 to 4). -/
def closeSequence (l : LinkNo) (s : State) : State :=
  let cancelled := (s.session l).tags.foldl (fun t x => cancelEntry l x t) s
  let retested := retest l (putSessState l .closed cancelled)
  unreserve l (reclaimClosed l retested)

/-- CLOSE once the common checks have passed (R110). -/
def closeSession (l : LinkNo) (tag : Byte) (_body : List Byte) (s : State) : State :=
  match (s.session l).state with
  | .closed => refuse l tag .noSession 0 s
  | .lapsed => reply l tag .doneEmpty (putSessState l .closed s)
  | .opened _ _ => reply l tag .doneEmpty (closeSequence l s)

/-- CLOSE (R110). -/
def execCloseSession (l : LinkNo) (tag : Byte) (body : List Byte) (s : State) : Host.Outcome State Fault Refusal :=
  serve .closeSession l tag body (closeSession l tag body) s

/-! ### RENEW and leases (R112 to R114) -/

/-- RENEW once the common checks have passed: the renewal was made at the frame's reception (R112). -/
def renew (l : LinkNo) (tag : Byte) (_body : List Byte) (s : State) : State :=
  reply l tag (.doneRenew (s.settings l).lease) s

/-- RENEW (R112). -/
def execRenew (l : LinkNo) (tag : Byte) (body : List Byte) (s : State) : Host.Outcome State Fault Refusal :=
  serve .renew l tag body (renew l tag body) s

/-- A good frame re-arms the lease deadline of an OPEN session at the lease period from now (R113). -/
def renewLease (l : LinkNo) (s : State) : State :=
  match (s.session l).state with
  | .opened _ epoch => putSessState l (.opened (s.due (s.settings l).lease) epoch) s
  | .closed | .lapsed => s

/-- A failure end announced: the lock engine acts before the barrier unit (R124). -/
def failureEnd (l : LinkNo) (s : State) : State := depart l (reclaimFailed l s)

/-- The session lapses, with the cause that ENDED tells: the steps of R114, also for an EVICT (R116). -/
def lapse (l : LinkNo) (cause : EndCause) (s : State) : State :=
  failureEnd l (queueReserved l 0 (.ended cause) (flush l (dropTags l (putSessState l .lapsed s))))

/-- The lease deadline of an OPEN session (R108). -/
def Session.leaseDeadline (x : Session) : Option Instant :=
  match x.state with
  | .opened d _ => some d
  | .closed | .lapsed => none

/-- LEASE_DEADLINE_EXPIRY (R114). -/
def execLeaseDeadlineExpiry (l : LinkNo) (s : State) : Host.Outcome State Fault Refusal :=
  if s.expires (s.session l).leaseDeadline then .next (lapse l .lapsed s) else .next s

/-! ### Other ends (R117, R118) -/

/-- What the session table does when a break has ended, the queues being cleared already (R117). -/
def sessionAtBreak (l : LinkNo) (s : State) : State :=
  match (s.session l).state with
  | .opened _ _ => failureEnd l (dropTags l (putSessState l .closed s))
  | .lapsed => putSessState l .closed s
  | .closed => s

/-- What the session table does with link `l` at RESTART: an OPEN session is flushed, told ENDED (RESTART) and closed; a
LAPSED one closes silently (R118, R157). -/
def sessionAtRestart (s : State) (l : LinkNo) : State :=
  match (s.session l).state with
  | .opened _ _ => putSessState l .closed (queueReserved l 0 (.ended .restart) (flush l (dropTags l s)))
  | .lapsed => putSessState l .closed s
  | .closed => s

/-- Every session ended at RESTART, in increasing link number (R118). -/
def endSessions (s : State) : State := (List.finRange 6).foldl sessionAtRestart s

end Sys2Proof.Machine
end

