-- ==== Sys2Proof/Machine/LinkEvents.lean ====
section
/-! DEFINITION. The link units: the receiver with its faults, breaks, and the transmitter (Chapter 9). -/

namespace Sys2Proof.Machine

/-! ### Counters (R145) -/

/-- A counter raised by one; at 255 it stays. -/
def bump (c : Byte) : Byte := if c = 255 then 255 else c + 1

/-- The faults that the counters name. -/
inductive LinkFault where
  | framing
  | length
  | check
  | gap
  | discard
  deriving DecidableEq, Repr

/-- The counter a fault names raised by one. -/
def Counters.count (c : Counters) : LinkFault → Counters
  | .framing => { c with framing := bump c.framing }
  | .length => { c with length := bump c.length }
  | .check => { c with check := bump c.check }
  | .gap => { c with gap := bump c.gap }
  | .discard => { c with discard := bump c.discard }

/-- A fault counted on a link. -/
def countFault (l : LinkNo) (f : LinkFault) (s : State) : State :=
  s.putLink l { s.link l with counters := (s.link l).counters.count f }

/-! ### The receiver (R136 to R138) -/

/-- What a character brings about besides the receiver's move. -/
inductive RxEvent where
  /-- Nothing further. -/
  | quiet
  /-- A length byte outside 2 to 58. -/
  | badLength
  /-- The frame is complete at its second check byte. -/
  | complete (length : Byte) (bytes : List Byte) (first second : Byte) (poisoned : Bool)
  deriving DecidableEq, Repr

/-- The receiver's move on a character of value `v`, as Figure 9-2 gives. `faulty` says that its stop bit was low: such a
character does not begin a frame and poisons a frame in assembly (R138). -/
def rxMove (v : Byte) (faulty : Bool) : Receiver → Receiver × RxEvent
  | .hunt => if v = Config.markByte ∧ !faulty then (.length, .quiet) else (.hunt, .quiet)
  | .length =>
      if 2 ≤ v.toNat ∧ v.toNat ≤ 58 then (.body v [] faulty, .quiet) else (.hunt, .badLength)
  | .body n bytes p =>
      if n.toNat ≤ bytes.length + 1 then (.check n (bytes ++ [v]) none (p || faulty), .quiet)
      else (.body n (bytes ++ [v]) (p || faulty), .quiet)
  | .check n bytes none p => (.check n bytes (some v) (p || faulty), .quiet)
  | .check n bytes (some c) p => (.hunt, .complete n bytes c v (p || faulty))

/-- The check of a received frame is good: the two check bytes equal the check over the bytes received (R139). -/
def checkGood (length : Byte) (bytes : List Byte) (first second : Byte) : Bool :=
  first ++ second = checkOf (length :: bytes)

/-- The frame that the kind, tag and body bytes make. -/
def frameOf (bytes : List Byte) : Frame :=
  { kind := byteAt bytes 0, tag := byteAt bytes 1, body := bytes.drop 2 }

/-- A good frame: the lease is renewed, then the frame is appended to the intake queue or dropped with DISCARD (R140). -/
def admitFrame (l : LinkNo) (f : Frame) (s : State) : State :=
  let t := renewLease l s
  if (t.link l).intake.length < Config.intakeRoom then
    t.putLink l { t.link l with intake := (t.link l).intake ++ [f] }
  else countFault l .discard t

/-- What a receiver event does beyond the receiver (R136, R140). -/
def rxEffect (l : LinkNo) (e : RxEvent) (s : State) : State :=
  match e with
  | .quiet => s
  | .badLength => countFault l .length s
  | .complete n bytes c1 c2 poisoned =>
      if poisoned then s
      else if checkGood n bytes c1 c2 then admitFrame l (frameOf bytes) s
      else countFault l .check s

/-- A character ends on link `l`: the receiver moves, the gap timer starts when it is left in LENGTH, BODY or CHECK
(R137), and the move takes its effect. A stop-bit fault whose value is not 0 is judged with the line still low (R138). -/
def endCharacter (l : LinkNo) (v : Byte) (faulty : Bool) (s : State) : State :=
  let m := rxMove v faulty (s.link l).receiver
  rxEffect l m.2 (s.putLink l { s.link l with
    receiver := m.1, inCharacter := false
    gapTimer := if m.1 = .hunt then .stopped else if faulty && v ≠ 0 then .lineLow 0 else .running 0 })

/-- The receiver of the link works: the link is enabled and RESET_N is not held (R146, R158). -/
def State.receives (s : State) (l : LinkNo) : Bool := (s.settings l).enabled && !s.resetHeld

/-- CHARACTER_RECEIVED_WHOLE (R136). A character that is a bad length byte or a second check byte has the effect of
LENGTH_FAULT or FRAME_RECEIVED (log entry 4). -/
def execCharacterReceivedWhole (l : LinkNo) (v : Byte) (s : State) : Host.Outcome State Fault Refusal :=
  if s.receives l then .next (endCharacter l v false s) else .next s

/-- LENGTH_FAULT: LENGTH is counted, the frame is abandoned, the receiver returns to HUNT (R136). -/
def execLengthFault (l : LinkNo) (v : Byte) (s : State) : Host.Outcome State Fault Refusal :=
  if s.receives l && (s.link l).receiver = .length && (rxMove v false (s.link l).receiver).2 = .badLength then
    .next (endCharacter l v false s)
  else .next s

/-- The receiver waits for the second check byte. -/
def Receiver.awaitsLast : Receiver → Bool
  | .check _ _ (some _) _ => true
  | .hunt | .length | .body .. | .check _ _ none _ => false

/-- FRAME_RECEIVED: the second check byte completes the frame (R140). -/
def execFrameReceived (l : LinkNo) (v : Byte) (s : State) : Host.Outcome State Fault Refusal :=
  if s.receives l && (s.link l).receiver.awaitsLast then .next (endCharacter l v false s) else .next s

/-- STOP_BIT_FAULT: FRAMING is counted in every state, then the character is ignored in HUNT and poisons a frame in
assembly (R138). -/
def execStopBitFault (l : LinkNo) (v : Byte) (s : State) : Host.Outcome State Fault Refusal :=
  if s.receives l then .next (endCharacter l v true (countFault l .framing s)) else .next s

/-- The frame in assembly abandoned: HUNT, gap timer stopped. -/
def abandonFrame (l : LinkNo) (s : State) : State :=
  s.putLink l { s.link l with receiver := .hunt, gapTimer := .stopped }

/-- The gap timer has run its limit: GAP is counted and the frame in assembly is abandoned (R137). -/
def runOutGapTimer (l : LinkNo) (s : State) : State := abandonFrame l (countFault l .gap s)

/-- The receive line is told to have returned high short of a break after a stop-bit fault: a gap timer that has its limit
behind it has then run out, and another runs on (R137). -/
def lineReturned (l : LinkNo) (s : State) : State :=
  match (s.link l).gapTimer with
  | .stopped | .running _ => s
  | .lineLow k =>
      if (s.link l).gapPeriods ≤ k then runOutGapTimer l s else s.putLink l { s.link l with gapTimer := .running k }

/-- START_EDGE: a character begins and the gap timer stops (R137). The receiver looks for the next start edge only once
the character in progress has ended and the line has been high (R134). -/
def execStartEdge (l : LinkNo) (s : State) : Host.Outcome State Fault Refusal :=
  if s.receives l && !(s.link l).inCharacter then
    let t := lineReturned l s
    .next (t.putLink l { t.link l with inCharacter := true, gapTimer := .stopped })
  else .next s

/-- `n` CLKIN periods pass at the gap timer of a link. A running timer counts them and runs out at the adopted gap limit
(R137, R133); while the line stays low after a stop-bit fault it does not run out (R137, R142). -/
def runGapTimer (l : LinkNo) (n : Nat) (s : State) : State :=
  match (s.link l).gapTimer with
  | .stopped => s
  | .running k =>
      if (s.link l).gapPeriods ≤ k + n then runOutGapTimer l s
      else s.putLink l { s.link l with gapTimer := .running (k + n) }
  | .lineLow k => s.putLink l { s.link l with gapTimer := .lineLow (k + n) }

/-- The CLKIN periods that the gap timer of a link has still to run (R137). -/
def LinkUnit.gapLeft (u : LinkUnit) : Nat :=
  match u.gapTimer with
  | .stopped => 0
  | .running k | .lineLow k => u.gapPeriods - k

/-- GAP_TIMER_EXPIRY: the line is high and the rest of the gap limit passes at the link's gap timer, which runs out (R137, log
entries 3 and 14). -/
def execGapTimerExpiry (l : LinkNo) (s : State) : Host.Outcome State Fault Refusal :=
  if s.receives l then
    let t := lineReturned l s
    .next (runGapTimer l (t.link l).gapLeft t)
  else .next s

/-! ### Break (R143) -/

/-- The transmitter at a break's end: of a frame in transmission only the character being sent is completed (R143 step 3). -/
def Transmitter.abort : Transmitter → Transmitter
  | .idle => .idle
  | .finishing baud char place => .finishing baud char place
  | .sending baud chars place =>
      match chars[place / charPeriods baud]? with
      | some char => .finishing baud char (place % charPeriods baud)
      | none => .idle

/-- The link unit's part of a break's end: the frame in assembly is abandoned, the intake queue emptied, the transmission
aborted, the outbound queue and reservations cleared, and a cleared SET_LINK DONE makes its adoption (R143 steps 1 to
5). -/
def clearLink (l : LinkNo) (s : State) : State :=
  let u := s.link l
  let t := s.putLink l { u with
    receiver := .hunt, inCharacter := false, gapTimer := .stopped
    intake := [], outbound := [], reserved := 0, transmitter := u.transmitter.abort }
  if u.outbound.any (·.adopts) then adopt l t else t

/-- BREAK_END (R143, R117). A disabled link detects no break (R142). -/
def execBreakEnd (l : LinkNo) (s : State) : Host.Outcome State Fault Refusal :=
  if s.receives l then .next (sessionAtBreak l (clearLink l s)) else .next s

/-! ### The transmitter (R144) -/

/-- FRAME_TRANSMIT_START: the transmitter of an enabled link takes the head entry and begins its frame at the adopted baud
code. A character that a break has left to finish has ended by then (log entry 3). -/
def execFrameTransmitStart (l : LinkNo) (s : State) : Host.Outcome State Fault Refusal :=
  match (s.link l).outbound with
  | e :: _ =>
      if s.receives l && !(s.link l).isSending then
        .next (s.putLink l { s.link l with transmitter := .sending (s.link l).baud e.chars 0 })
      else .next s
  | [] => .next s

/-- The head entry has been sent: it leaves the queue, and a SET_LINK DONE makes its adoption (R144, R147). -/
def finishEntry (l : LinkNo) (e : OutEntry) (rest : List OutEntry) (s : State) : State :=
  let t := s.putLink l { s.link l with outbound := rest, transmitter := .idle }
  if e.adopts then adopt l t else t

/-- `n` CLKIN periods pass at the transmitter of a link. At the end of the last stop bit a frame's entry leaves the queue,
and a character that a break has left to finish leaves the line at rest (R143, R144). -/
def runTransmitter (l : LinkNo) (n : Nat) (s : State) : State :=
  match (s.link l).transmitter with
  | .idle => s
  | .finishing baud char place =>
      s.putLink l { s.link l with
        transmitter := if charPeriods baud ≤ place + n then .idle else .finishing baud char (place + n) }
  | .sending baud chars place =>
      if chars.length * charPeriods baud ≤ place + n then
        match (s.link l).outbound with
        | e :: rest => finishEntry l e rest s
        | [] => s.putLink l { s.link l with transmitter := .idle }
      else s.putLink l { s.link l with transmitter := .sending baud chars (place + n) }

/-- The CLKIN periods that a frame in transmission has still to take (R144). -/
def Transmitter.frameLeft : Transmitter → Nat
  | .sending baud chars place => chars.length * charPeriods baud - place
  | .idle | .finishing .. => 0

/-- ENTRY_TRANSMITTED: the rest of the frame is sent (R144, log entry 3). It comes about on a disabled link too, whose frame
in transmission completes (R146). -/
def execEntryTransmitted (l : LinkNo) (s : State) : Host.Outcome State Fault Refusal :=
  if !s.resetHeld && (s.link l).isSending then .next (runTransmitter l (s.link l).transmitter.frameLeft s) else .next s

/-! ### The count of CLKIN periods of the link units -/

/-- One CLKIN period passes at a link unit: its gap timer counts it, then its transmitter. Where the gap limit runs out in the
period in which a SET_LINK DONE's last stop bit ends, GAP is thus counted before the adoption: R133, R137 and R147 leave that
order open, DESIGN CHOICE, log entry 15. -/
def linkPeriod (s : State) (l : LinkNo) : State := runTransmitter l 1 (runGapTimer l 1 s)

/-- One CLKIN period passes at every link unit. -/
def linePeriod (s : State) : State := (List.finRange 6).foldl linkPeriod s

end Sys2Proof.Machine
end

