-- ==== Sys2Proof/Machine/TimeBase.lean ====
section
/-! DEFINITION. The time base: the passing of time, and the expiries that can wait no longer (Chapter 8). -/

namespace Sys2Proof.Machine

/-! ### Expiries that can wait no longer (R127) -/

/-- An armed deadline whose latest moment, one millisecond after its due point, lies before the instant `later`. -/
def overdue (later : Instant) (d : Option Instant) : Bool :=
  match d with
  | none => false
  | some d =>
      let past := later.ms - (d.ms + 1)
      past.toNat < 2 ^ 31 && (past ≠ 0 || d.sub < later.sub)

/-- The leases among them, in increasing link number. -/
def deliverLeases (later : Instant) (s : State) : State :=
  (List.finRange 6).foldl (fun t l => if overdue later (t.session l).leaseDeadline then lapse l .lapsed t else t) s

/-- The wait deadlines among them, in increasing record number. -/
def deliverWaits (later : Instant) (s : State) : State :=
  (List.finRange 128).foldl (fun t i => if overdue later (t.record i).state.waitDeadline then expireWait i t else t) s

/-- The hold deadlines among them, in increasing record number. -/
def deliverHolds (later : Instant) (s : State) : State :=
  (List.finRange 128).foldl (fun t i => if overdue later (t.record i).state.holdDeadline then expireHold i t else t) s

/-- The arrival deadlines among them, in increasing group number; the first to expire ends its round (R98). Of several
overdue in one group the oldest entry's is taken, which R99 leaves open: DESIGN CHOICE, log entry 5. -/
def deliverArrivals (later : Instant) (s : State) : State :=
  (List.finRange 8).foldl
    (fun t g =>
      match (t.group g).arrivals.find? (fun a => overdue later a.due) with
      | some a => expireArrival g a t
      | none => t) s

/-- The time base delivers every expiry that cannot be taken at `later` any more (R127). R130 leaves their order open:
DESIGN CHOICE, log entry 5. -/
def deliverOverdue (later : Instant) (s : State) : State :=
  deliverArrivals later (deliverHolds later (deliverWaits later (deliverLeases later s)))

/-! ### The uptime (R125) -/

/-- The end of the current millisecond. -/
def State.nextMillisecond (s : State) : Instant := { ms := s.uptime + 1, sub := 0 }

/-- The end of the current CLKIN period; 18,432 of them make a millisecond (R125). -/
def State.nextPeriod (s : State) : Instant :=
  if s.clkin.val + 1 = Config.clkinPerMs then s.nextMillisecond else { ms := s.uptime, sub := s.clkin + 1 }

/-- The time base stands at an instant. -/
def State.atInstant (s : State) (now : Instant) : State := { s with uptime := now.ms, clkin := now.sub }

/-- UPTIME_TICK: the rest of the millisecond passes at the time base (R125, log entry 3). It does not count while RESET_N is
held (R158), and no gap timer meets it (R133). -/
def execUptimeTick (s : State) : Host.Outcome State Fault Refusal :=
  if s.resetHeld then .next s
  else .next ((deliverOverdue s.nextMillisecond s).atInstant s.nextMillisecond)

/-- One CLKIN period with no command waiting (log entry 3): the time base and the link units count it. The expiries that can
wait no longer come before what ends at the link units in that period; the spec leaves that order open (R130): DESIGN CHOICE,
log entry 15. -/
def clkinPeriod (s : State) : State :=
  if s.resetHeld then s else (linePeriod (deliverOverdue s.nextPeriod s)).atInstant s.nextPeriod

end Sys2Proof.Machine
end

