-- ==== Sys2Proof/Machine/Control.lean ====
section
/-! DEFINITION. Resets, the time base, and profile and service control: the setting requests, START, RESTART, PROFILE, EVICT
and STATUS (Chapters 8 and 11). -/

namespace Sys2Proof.Machine

/-! ### Resets (R158, R20, R33, R107, R108, R125, R131) -/

/-- A start of service: the epoch advances by one modulo 2^16 and the part enters SERVICE (R160, R165). -/
def startService (s : State) : State := { s with epoch := s.epoch + 1, service := .service }

/-- The straps sampled and latched; autostart, when it applies, starts service (R158). -/
def latchStraps (straps : Straps) (s : State) : State :=
  let t := { s with straps := straps }
  if straps.autostart then startService t else t

/-- POWER_ON: everything cleared, the straps sampled (R20, R158). The waiting commands are the model's own and stay. -/
def execPowerOn (msel : Fin 8) (astart : Bool) (s : State) : Host.Outcome State Fault Refusal :=
  .next (latchStraps { msel := msel, astart := astart } { State.reset with pending := s.pending })

/-- The values of RESET_N: those of power-on, but for the token counter, the epoch and the reuse counts, which are cleared
at power-on alone; a record in use has its reuse count incremented once. The straps stay latched until the release. -/
def resetValues (s : State) : State :=
  { State.reset with
    resetHeld := true
    straps := s.straps
    epoch := s.epoch
    tokens := s.tokens
    records := mapVector Record.afterReset s.records
    pending := s.pending }

/-- RESET_N_ASSERT: the falling edge sets the values and holds them (R158). A pin already low has no falling edge. -/
def execResetNAssert (s : State) : Host.Outcome State Fault Refusal :=
  if s.resetHeld then .next s else .next (resetValues s)

/-- RESET_N_RELEASE: the rising edge samples the straps; counting starts (R158). A pin already high has no rising edge. -/
def execResetNRelease (msel : Fin 8) (astart : Bool) (s : State) : Host.Outcome State Fault Refusal :=
  if s.resetHeld then .next (latchStraps { msel := msel, astart := astart } { s with resetHeld := false }) else .next s

/-! ### SET_LINK (R162, R146, R147) -/

/-- The first field of a SET_LINK that is out of range, by its number (R162). -/
def SetLinkReq.badField (q : SetLinkReq) (management : Option LinkNo) : Option Byte :=
  firstFailure
    [ ((linkOf q.link).isNone, 1),
      (1 < q.enabled.toNat || (q.enabled = 0 && (linkOf q.link).isSome && linkOf q.link = management), 2),
      (7 < q.baud, 3),
      (q.gap < 2 || 250 < q.gap, 4),
      (q.lease < 50 || 60000 < q.lease, 5),
      (q.quota < 1 || 128 < q.quota, 6),
      (q.weight < 1 || 4 < q.weight, 7) ]

/-- The settings a SET_LINK writes. -/
def SetLinkReq.settings (q : SetLinkReq) : LinkSettings :=
  { enabled := q.enabled = 1, baud := q.baud, gap := q.gap, lease := q.lease, quota := q.quota, weight := q.weight }

/-- A link turned off: the frame in assembly is abandoned, the intake queue emptied, the entries other than the frame in
transmission discarded (R146). -/
def disableLink (l : LinkNo) (s : State) : State :=
  let u := s.link l
  s.putLink l { u with receiver := .hunt, inCharacter := false, gapTimer := .stopped
                       intake := [], outbound := u.keptByFlush }

/-- A link turned on: its receiver starts in HUNT and its transmitter idle (R146, R162). The entry of a frame still in
transmission is discarded with it: DESIGN CHOICE, log entry 7. -/
def enableLink (l : LinkNo) (s : State) : State :=
  let u := s.link l
  s.putLink l { u with receiver := .hunt, inCharacter := false, gapTimer := .stopped
                       transmitter := .idle, outbound := u.lostByFlush }

/-- The settings of link `n` written into the profile, with what the link unit does in the same event (R146, R147). The
management link adopts later, when its DONE leaves the queue. -/
def writeLink (n : LinkNo) (new : LinkSettings) (s : State) : State :=
  let old := s.settings n
  let t := { s with profile := { s.profile with links := s.profile.links.set n new } }
  let t := if old.enabled && !new.enabled then disableLink n t
           else if !old.enabled && new.enabled then enableLink n t
           else t
  if s.management = some n || (new.baud = old.baud && new.gap = old.gap) then t else adopt n t

/-- SET_LINK once the common checks have passed (R162). -/
def setLink (l : LinkNo) (tag : Byte) (body : List Byte) (s : State) : State :=
  let q := SetLinkReq.ofBody body
  match q.badField s.management, linkOf q.link with
  | some f, _ => refuse l tag .badValue f s
  | none, none => refuse l tag .badValue 1 s
  | none, some n =>
    let old := s.settings n
    let changes := q.baud ≠ old.baud || q.gap ≠ old.gap
    queueFree l { tag := tag, msg := .doneEmpty, adopts := s.management = some n && changes }
      (writeLink n q.settings s)

/-- SET_LINK (R162). -/
def execSetLink (l : LinkNo) (tag : Byte) (body : List Byte) (s : State) : Host.Outcome State Fault Refusal :=
  serve .setLink l tag body (setLink l tag body) s

/-! ### SET_WINDOW (R163) -/

/-- The first field of a SET_WINDOW that is out of range, in the order of R163's tests, by its number. -/
def SetWindowReq.badField (q : SetWindowReq) : Option Byte :=
  firstFailure
    [ ((linkOf q.link).isNone, 1),
      ((windowOf q.index).isNone, 2),
      (Config.maxExponent < q.exp, 4),
      (q.localBase % 2 ^ q.exp ≠ 0, 3),
      (q.globalBase % 2 ^ q.exp ≠ 0, 5),
      ((Access.ofCode q.access).isNone, 6) ]

/-- One window of a link written into the profile. -/
def writeWindow (n : LinkNo) (i : WindowNo) (w : Window) (s : State) : State :=
  { s with profile := { s.profile with windows := s.profile.windows.set n ((s.windows n).set i w) } }

/-- SET_WINDOW once the common checks have passed (R163). -/
def setWindow (l : LinkNo) (tag : Byte) (body : List Byte) (s : State) : State :=
  let q := SetWindowReq.ofBody body
  match q.badField, linkOf q.link, windowOf q.index, Access.ofCode q.access with
  | some f, _, _, _ => refuse l tag .badValue f s
  | none, some n, some i, some a =>
      reply l tag .doneEmpty
        (writeWindow n i { localBase := q.localBase, exp := q.exp, globalBase := q.globalBase, access := a } s)
  | none, _, _, _ => refuse l tag .badValue 1 s

/-- SET_WINDOW (R163). -/
def execSetWindow (l : LinkNo) (tag : Byte) (body : List Byte) (s : State) : Host.Outcome State Fault Refusal :=
  serve .setWindow l tag body (setWindow l tag body) s

/-! ### SET_GROUP (R164) -/

/-- The number of links in a member set. -/
def memberCount (members : BitVec 6) : Nat := (List.finRange 6).countP (fun l => members.getLsbD l.val)

/-- The first field of a SET_GROUP that is out of range, by its number (R164). -/
def SetGroupReq.badField (q : SetGroupReq) : Option Byte :=
  let set : BitVec 6 := q.members.setWidth 6
  firstFailure
    [ ((groupOf q.group).isNone, 1),
      (q.members.getLsbD 6 || q.members.getLsbD 7, 2),
      ((GroupMode.ofCode q.mode).isNone, 3),
      (q.k < 1 || 6 < q.k, 4),
      (set ≠ 0 && memberCount set < q.k, 4) ]

/-- A group definition written into the profile. -/
def writeGroup (g : GroupNo) (d : GroupDef) (s : State) : State :=
  { s with profile := { s.profile with groups := s.profile.groups.set g d } }

/-- SET_GROUP once the common checks have passed (R164). -/
def setGroup (l : LinkNo) (tag : Byte) (body : List Byte) (s : State) : State :=
  let q := SetGroupReq.ofBody body
  match q.badField, groupOf q.group, GroupMode.ofCode q.mode with
  | some f, _, _ => refuse l tag .badValue f s
  | none, some g, some m =>
      reply l tag .doneEmpty (writeGroup g { members := q.members.setWidth 6, mode := m, k := q.k } s)
  | none, _, _ => refuse l tag .badValue 1 s

/-- SET_GROUP (R164). -/
def execSetGroup (l : LinkNo) (tag : Byte) (body : List Byte) (s : State) : Host.Outcome State Fault Refusal :=
  serve .setGroup l tag body (setGroup l tag body) s

/-! ### START and RESTART (R165, R166) -/

/-- START once the common checks have passed (R165). -/
def start (l : LinkNo) (tag : Byte) (_body : List Byte) (s : State) : State :=
  let t := startService s
  reply l tag (.doneStart t.epoch) t

/-- START (R165). -/
def execStart (l : LinkNo) (tag : Byte) (body : List Byte) (s : State) : Host.Outcome State Fault Refusal :=
  serve .start l tag body (start l tag body) s

/-- RESTART once the common checks have passed, its steps in order (R166). -/
def restart (l : LinkNo) (tag : Byte) (_body : List Byte) (s : State) : State :=
  reply l tag .doneEmpty (clearGroups (clearPool (endSessions { s with service := .setup })))

/-- RESTART (R166). -/
def execRestart (l : LinkNo) (tag : Byte) (body : List Byte) (s : State) : Host.Outcome State Fault Refusal :=
  serve .restart l tag body (restart l tag body) s

/-! ### PROFILE (R167) -/

/-- The item that a selector and index name, or the number of the field that is out of range (R167, Table 11-3). -/
def profileItem (selector index : Nat) (s : State) : Except Byte Message :=
  if selector = 0 then
    if h : index < 6 then
      let l : LinkNo := ⟨index, h⟩
      .ok (.doneProfileLink l (s.settings l) (s.link l).baud (s.link l).gap)
    else .error 2
  else if selector = 1 then
    if h : index < 24 then
      let l : LinkNo := ⟨index / 4, by omega⟩
      .ok (.doneProfileWindow index ((s.windows l).get ⟨index % 4, by omega⟩))
    else .error 2
  else if selector = 2 then
    if h : index < 8 then
      let g : GroupNo := ⟨index, h⟩
      .ok (.doneProfileGroup g (s.groupDef g) (s.group g).generation (s.group g).arrivals.length)
    else .error 2
  else if selector = 3 then
    if index = 0 then .ok (.doneProfileStraps s.straps s.management s.straps.autostart) else .error 2
  else .error 1

/-- PROFILE once the common checks have passed (R167). -/
def profile (l : LinkNo) (tag : Byte) (body : List Byte) (s : State) : State :=
  match profileItem (fieldAt body 0 1) (fieldAt body 1 1) s with
  | .error f => refuse l tag .badValue f s
  | .ok m => reply l tag m s

/-- PROFILE (R167). -/
def execProfile (l : LinkNo) (tag : Byte) (body : List Byte) (s : State) : Host.Outcome State Fault Refusal :=
  serve .profile l tag body (profile l tag body) s

/-! ### EVICT (R168) -/

/-- EVICT once the common checks have passed (R168). -/
def evict (l : LinkNo) (tag : Byte) (body : List Byte) (s : State) : State :=
  match linkOf (byteAt body 0) with
  | none => refuse l tag .badValue 1 s
  | some n =>
    if s.management = some n then refuse l tag .badValue 1 s
    else if !(s.session n).isOpen then refuse l tag .noSession 0 s
    else reply l tag .doneEmpty (lapse n .evicted s)

/-- EVICT (R168). -/
def execEvict (l : LinkNo) (tag : Byte) (body : List Byte) (s : State) : Host.Outcome State Fault Refusal :=
  serve .evict l tag body (evict l tag body) s

/-! ### STATUS (R169) -/

/-- Selector 0: this link's session, tags, records, free entries and counters (R169). -/
def linkStatus (l : LinkNo) (s : State) : Message :=
  .doneStatusLink (s.session l).state.code (s.session l).tags.length (s.session l).owned (s.link l).free
    (s.link l).counters

/-- Selector 1: the part (R169, R28). -/
def partStatus (s : State) : Message :=
  .doneStatusPart s.service s.epoch s.tokens (s.countRecords (· ≠ .free)) (s.countRecords RecState.isWaiting)
    (s.countRecords RecState.isWatching) s.uptime

/-- The five counters of a link set to 0 (R145). -/
def clearCounters (l : LinkNo) (s : State) : State := s.putLink l { s.link l with counters := Counters.zero }

/-- STATUS once the common checks have passed (R169). -/
def status (l : LinkNo) (tag : Byte) (body : List Byte) (s : State) : State :=
  match fieldAt body 0 1 with
  | 0 => reply l tag (linkStatus l s) (clearCounters l s)
  | 1 => reply l tag (partStatus s) s
  | _ => refuse l tag .badValue 1 s

/-- STATUS (R169). -/
def execStatus (l : LinkNo) (tag : Byte) (body : List Byte) (s : State) : Host.Outcome State Fault Refusal :=
  serve .status l tag body (status l tag body) s

end Sys2Proof.Machine
end

