-- ==== Sys2Proof/Machine/Dispatch.lean ====
section
/-! DEFINITION. The effect of each command on everything but the queue of waiting commands: one arm for each row of the
table. -/

namespace Sys2Proof.Machine

def exec (i : Instr) (s : State) : Host.Outcome State Fault Refusal :=
  match i with
  | .powerOn msel astart => Sys2Proof.Machine.execPowerOn msel astart s
  | .resetNAssert => Sys2Proof.Machine.execResetNAssert s
  | .resetNRelease msel astart => Sys2Proof.Machine.execResetNRelease msel astart s
  | .uptimeTick => Sys2Proof.Machine.execUptimeTick s
  | .leaseDeadlineExpiry l => Sys2Proof.Machine.execLeaseDeadlineExpiry l s
  | .lockWaitDeadlineExpiry r => Sys2Proof.Machine.execLockWaitDeadlineExpiry r s
  | .convertWaitDeadlineExpiry r => Sys2Proof.Machine.execConvertWaitDeadlineExpiry r s
  | .watchWaitDeadlineExpiry r => Sys2Proof.Machine.execWatchWaitDeadlineExpiry r s
  | .holdDeadlineExpiry r => Sys2Proof.Machine.execHoldDeadlineExpiry r s
  | .arrivalDeadlineExpiry g l => Sys2Proof.Machine.execArrivalDeadlineExpiry g l s
  | .gapTimerExpiry l => Sys2Proof.Machine.execGapTimerExpiry l s
  | .lengthFault l v => Sys2Proof.Machine.execLengthFault l v s
  | .stopBitFault l v => Sys2Proof.Machine.execStopBitFault l v s
  | .frameReceived l v => Sys2Proof.Machine.execFrameReceived l v s
  | .breakEnd l => Sys2Proof.Machine.execBreakEnd l s
  | .frameTransmitStart l => Sys2Proof.Machine.execFrameTransmitStart l s
  | .entryTransmitted l => Sys2Proof.Machine.execEntryTransmitted l s
  | .unknownKindFrame l kind tag body => Sys2Proof.Machine.execUnknownKindFrame l kind tag body s
  | .openSession l tag body => Sys2Proof.Machine.execOpenSession l tag body s
  | .closeSession l tag body => Sys2Proof.Machine.execCloseSession l tag body s
  | .renew l tag body => Sys2Proof.Machine.execRenew l tag body s
  | .status l tag body => Sys2Proof.Machine.execStatus l tag body s
  | .acquire l tag body => Sys2Proof.Machine.execAcquire l tag body s
  | .release l tag body => Sys2Proof.Machine.execRelease l tag body s
  | .convert l tag body => Sys2Proof.Machine.execConvert l tag body s
  | .cancel l tag body => Sys2Proof.Machine.execCancel l tag body s
  | .watch l tag body => Sys2Proof.Machine.execWatch l tag body s
  | .query l tag body => Sys2Proof.Machine.execQuery l tag body s
  | .arrive l tag body => Sys2Proof.Machine.execArrive l tag body s
  | .setLink l tag body => Sys2Proof.Machine.execSetLink l tag body s
  | .setWindow l tag body => Sys2Proof.Machine.execSetWindow l tag body s
  | .setGroup l tag body => Sys2Proof.Machine.execSetGroup l tag body s
  | .setFloor l tag body => Sys2Proof.Machine.execSetFloor l tag body s
  | .start l tag body => Sys2Proof.Machine.execStart l tag body s
  | .restart l tag body => Sys2Proof.Machine.execRestart l tag body s
  | .profile l tag body => Sys2Proof.Machine.execProfile l tag body s
  | .evict l tag body => Sys2Proof.Machine.execEvict l tag body s
  | .characterReceivedWhole l v => Sys2Proof.Machine.execCharacterReceivedWhole l v s
  | .startEdge l => Sys2Proof.Machine.execStartEdge l s

end Sys2Proof.Machine
end

