-- ==== Sys2Proof/Machine/Step.lean ====
section
/-! DEFINITION. One step of the part: the command at the front of the queue, or one CLKIN period when none waits. -/

namespace Sys2Proof.Machine

/-- The command at the front of the queue leaves it and takes its effect. On an empty queue the part idles for one CLKIN
period: DESIGN CHOICE, log entry 3. -/
def step (s : State) : Host.Outcome State Fault Refusal :=
  match s.pending with
  | [] => .next (clkinPeriod s)
  | c :: rest => exec c { s with pending := rest }

/-- The command that a table word spells put at the front of the queue. No word spells one (Sys2Proof/Decode.lean), so the
state is left as it is. -/
def State.withFetchWord (s : State) (nbits w : Nat) : State :=
  match decodeTableWord nbits w with
  | some c => { s with pending := c :: s.pending }
  | none => s

end Sys2Proof.Machine
end

