-- ==== Sys2Proof/Safety.lean ====
section
/-! DEFINITION. What the spec says holds of the part after every event: the invariants of its blocks, in the terms the
statements use. -/

namespace Sys2Proof.Safety

open Sys2Proof.Machine

/-- The wait list and the watch list hold each WAITING and each WATCHING record once, and nothing else (R26, R27). -/
def ListsMatch (s : State) : Prop :=
  s.waitList.Nodup ∧ s.watchList.Nodup ∧
  (∀ i, i ∈ s.waitList ↔ (s.record i).state.isWaiting = true) ∧
  (∀ i, i ∈ s.watchList ↔ (s.record i).state.isWatching = true)

/-- Two holdings that overlap: at least one is HELD, and neither is HELD EXCLUSIVE, so that both hold in shared mode
(R41). -/
def mayStandTogether : RecState → RecState → Prop
  | .held _ _ m _ _, .held _ _ n _ _ => m = .shared ∧ n = .shared
  | .held _ _ m _ _, .converting .. => m = .shared
  | .converting .., .held _ _ n _ _ => n = .shared
  | .converting .., .converting .. => False
  | .free, _ | .waiting .., _ | .watching .., _ => True
  | _, .free | _, .waiting .. | _, .watching .. => True

/-- The block of a holding. -/
def holdingBlock (x : RecState) : Option Block := x.holding.map (·.1)

/-- No two holdings overlap unless both hold in shared mode, and no two CONVERTING records overlap (R41). -/
def HoldingsCompatible (s : State) : Prop :=
  ∀ i j, i ≠ j → ∀ b c, holdingBlock (s.record i).state = some b → holdingBlock (s.record j).state = some c →
    b.overlaps c = true → mayStandTogether (s.record i).state (s.record j).state

/-- Every holding's token is from 1 to the counter, and no two holdings carry the same token (R16, R30). -/
def TokensSound (s : State) : Prop :=
  (∀ i t, (s.record i).state.token = some t → 1 ≤ t.toNat ∧ t.toNat ≤ s.tokens.toNat) ∧
  (∀ i j t, (s.record i).state.token = some t → (s.record j).state.token = some t → i = j)

/-- The settings of a link lie in their ranges (R161). -/
def LinkSettingsInRange (p : LinkSettings) : Prop :=
  p.baud ≤ 7 ∧ 2 ≤ p.gap ∧ p.gap ≤ 250 ∧ 50 ≤ p.lease ∧ p.lease ≤ 60000 ∧ 1 ≤ p.quota ∧ p.quota ≤ 128 ∧
  1 ≤ p.weight ∧ p.weight ≤ 4

/-- A window's exponent is 24 or less and both its bases are aligned and inside the key space (R6). -/
def WindowInRange (w : Window) : Prop :=
  w.exp ≤ 24 ∧ w.localBase < 2 ^ 24 ∧ w.globalBase < 2 ^ 24 ∧
  w.localBase % 2 ^ w.exp = 0 ∧ w.globalBase % 2 ^ w.exp = 0

/-- A group's quorum is 1 to 6, and at most the number of members when there are any (R89). -/
def GroupDefInRange (d : GroupDef) : Prop :=
  1 ≤ d.k ∧ d.k ≤ 6 ∧ (d.members ≠ 0 → d.k ≤ memberCount d.members)

/-- Every value held in the profile lies within its stated range (R161, R6, R89). -/
def ProfileInRange (s : State) : Prop :=
  (∀ l, LinkSettingsInRange (s.settings l)) ∧
  (∀ l i, WindowInRange ((s.windows l).get i)) ∧
  (∀ g, GroupDefInRange (s.groupDef g))

/-- The block of a record that is not FREE. -/
def recordBlock : RecState → Option Block
  | .free => none
  | .waiting _ b .. | .held _ b .. | .converting _ b .. | .watching _ b .. => some b

/-- Every record in use names a well-formed global block (R2, R16). -/
def BlocksWellFormed (s : State) : Prop :=
  ∀ i b, recordBlock (s.record i).state = some b → b.wellFormed = true

/-- While the part is in SETUP every session is CLOSED, every record is FREE and every arrival list is empty; while RESET_N
is held the part is in SETUP (R158, R159, R108). -/
def SetupIsEmpty (s : State) : Prop :=
  (s.resetHeld = true → s.service = .setup) ∧
  (s.service = .setup →
    (∀ l, (s.session l).state = .closed) ∧ (∀ i, (s.record i).state = .free) ∧ (∀ g, (s.group g).arrivals = []))

/-- The records of the pool that a link owns. -/
def recordsOf (s : State) (l : LinkNo) : Nat := s.countRecords (fun x => x.owner = some l)

/-- The count of records owned that the session table keeps is the number of records the link owns (R28). -/
def CountsMatch (s : State) : Prop := ∀ l, (s.session l).owned = recordsOf s l

/-- No session owns more records than its quota, at most 64 records are WAITING and at most 16 WATCHING (R28). -/
def LimitsKept (s : State) : Prop :=
  (∀ l, recordsOf s l ≤ (s.settings l).quota) ∧ s.countRecords RecState.isWaiting ≤ 64 ∧
  s.countRecords RecState.isWatching ≤ 16

/-- An open tag names what R119 says: the WAITING, CONVERTING or WATCHING record of its session that holds the same tag,
or the arrival of its link in the group with the same tag. -/
def tagNames (s : State) (l : LinkNo) (x : OpenTag) : Prop :=
  match x.ref with
  | .lockWait i => ∃ b m d h, (s.record i).state = .waiting l b m x.tag d h
  | .convert i => ∃ b t d h, (s.record i).state = .converting l b t x.tag d h
  | .watch i => ∃ b d, (s.record i).state = .watching l b x.tag d
  | .arrival g => ∃ d, ({ link := l, tag := x.tag, due := d } : Arrival) ∈ (s.group g).arrivals

/-- The reference of the request that keeps a record WAITING, CONVERTING or WATCHING, with its link and tag (R24). -/
def waitsUnder (i : RecNo) : RecState → Option (LinkNo × OpenTag)
  | .waiting l _ _ tag .. => some (l, { tag := tag, ref := .lockWait i })
  | .converting l _ _ tag .. => some (l, { tag := tag, ref := .convert i })
  | .watching l _ tag _ => some (l, { tag := tag, ref := .watch i })
  | .free | .held .. => none

/-- Open tags and what they name correspond one to one; no tag stands twice in a list, which has at most 16 entries and
is empty unless the session is OPEN (R119, R108). -/
def TagsMatch (s : State) : Prop :=
  (∀ l, ((s.session l).tags.map (·.tag)).Nodup ∧ (s.session l).tags.length ≤ 16) ∧
  (∀ l x, x ∈ (s.session l).tags → x.tag ≠ 0 ∧ tagNames s l x ∧ (s.session l).isOpen = true) ∧
  (∀ i l x, waitsUnder i (s.record i).state = some (l, x) → x ∈ (s.session l).tags) ∧
  (∀ g a, a ∈ (s.group g).arrivals → ({ tag := a.tag, ref := .arrival g } : OpenTag) ∈ (s.session a.link).tags)

/-- A session that is not OPEN owns no record (R108). -/
def OwnersOpen (s : State) : Prop := ∀ i l, (s.record i).state.owner = some l → (s.session l).isOpen = true

/-- An arrival list holds at most one entry per link, only live members, and in mode QUORUM fewer than k entries (R90). -/
def ArrivalsSound (s : State) : Prop :=
  ∀ g, ((s.group g).arrivals.map (·.link)).Nodup ∧
    (∀ a, a ∈ (s.group g).arrivals → s.isLive g a.link = true) ∧
    ((s.groupDef g).mode = .quorum → (s.group g).arrivals ≠ [] → (s.group g).arrivals.length < (s.groupDef g).k)

/-- The reservations a link accounts for: its open tags, its records with a hold limit, and its session while OPEN
(R148). -/
def reservationsOf (s : State) (l : LinkNo) : Nat :=
  (s.session l).tags.length + s.countRecords (fun x => x.owner = some l && x.holdReserved) +
    (s.session l).isOpen.toNat

/-- The reserved count is what R148 says, and queued and reserved entries together never exceed 40, reserved entries alone
never 39 (R148, R149). -/
def AccountBalanced (s : State) : Prop :=
  ∀ l, (s.link l).reserved = reservationsOf s l ∧
    (s.link l).queued + (s.link l).reserved ≤ 40 ∧ (s.link l).reserved ≤ 39

/-- An intake queue holds at most 3 frames (R141) and the rotation count is at most 4 (R152). -/
def QueuesWithinLimits (s : State) : Prop := (∀ l, (s.link l).intake.length ≤ 3) ∧ s.rotation.taken ≤ 4

/-- No record stands unblocked: every WATCHING record overlaps a holding; unless the tokens are spent, every CONVERTING
record overlaps another holding, and every WAITING record conflicts with a holding or with an earlier WAITING record
(R50). -/
def NothingUnblocked (s : State) : Prop :=
  (∀ i o b t d, (s.record i).state = .watching o b t d → s.heldOver b = true) ∧
  (s.tokensSpent = false →
    (∀ i o b t g d h, (s.record i).state = .converting o b t g d h → s.otherHeldOver i b = true) ∧
    (∀ before i after o b m t d h, s.waitList = before ++ i :: after → (s.record i).state = .waiting o b m t d h →
      s.heldAgainst b m = true ∨ s.earlierAgainst before b m = true))

/-! ### Invariants that every step keeps -/

/-- Profile and pool geometry: every profile value in range, every block well-formed. -/
def GeometrySound (s : State) : Prop := ProfileInRange s ∧ BlocksWellFormed s

/-- The limits of the pool, the intake queues and the rotation, with what upholds them. -/
def LimitsSound (s : State) : Prop :=
  SetupIsEmpty s ∧ ProfileInRange s ∧ ListsMatch s ∧ CountsMatch s ∧ LimitsKept s ∧ QueuesWithinLimits s

/-- Sessions, tags, arrivals and the outbound account, as R90, R108, R119, R148 and R149 state them of every event's end. -/
def SessionsSound (s : State) : Prop :=
  SetupIsEmpty s ∧ ProfileInRange s ∧ TagsMatch s ∧ OwnersOpen s ∧ ArrivalsSound s ∧ AccountBalanced s

/-- A deadline is armed, and this command is its expiry (Table 8-1). -/
inductive Armed (s : State) : Instr → Instant → Prop where
  | lease (l d e) : (s.session l).state = .opened d e → Armed s (.leaseDeadlineExpiry l) d
  | lockWait (i o b m g d h) : (s.record i).state = .waiting o b m g (some d) h → Armed s (.lockWaitDeadlineExpiry i) d
  | convertWait (i o b t g d h) : (s.record i).state = .converting o b t g (some d) h →
      Armed s (.convertWaitDeadlineExpiry i) d
  | watchWait (i o b g d) : (s.record i).state = .watching o b g (some d) → Armed s (.watchWaitDeadlineExpiry i) d
  | held (i o b m t h) : (s.record i).state = .held o b m t (some h) → Armed s (.holdDeadlineExpiry i) h.due
  | converting (i o b t g d h) : (s.record i).state = .converting o b t g d (some h) →
      Armed s (.holdDeadlineExpiry i) h.due
  | arrival (g l tag d) : { link := l, tag := tag, due := some d } ∈ (s.group g).arrivals →
      Armed s (.arrivalDeadlineExpiry g l) d

/-- The latest moment at which the deadline's expiry may be taken, one millisecond after its due point, is not past: it lies
0 to 65,536 ms ahead (R126, R127). -/
def InTime (s : State) (d : Instant) : Prop :=
  (d.ms + 1 - s.uptime).toNat ≤ 65536 ∧ (s.uptime = d.ms + 1 → s.clkin ≤ d.sub)

/-- Every interval that can still be armed is at most 65,535 ms, and no armed deadline is past its latest moment (R126,
R127). -/
def DeadlinesInTime (s : State) : Prop :=
  (∀ l, (s.settings l).lease ≤ 65535) ∧
  (∀ i o b m g d h, (s.record i).state = .waiting o b m g d (some h) → h ≤ 65535) ∧
  ∀ c d, Armed s c d → InTime s d

/-- The lists with R50. -/
def ScanSettled (s : State) : Prop := ListsMatch s ∧ NothingUnblocked s

/-! ### Requests as the dispatcher meets them -/

/-- The kind, link, tag and body of a command that is a request. -/
def requestOf : Instr → Option (ReqKind × LinkNo × Byte × List Byte)
  | .openSession l g b => some (.openSession, l, g, b)
  | .closeSession l g b => some (.closeSession, l, g, b)
  | .renew l g b => some (.renew, l, g, b)
  | .status l g b => some (.status, l, g, b)
  | .acquire l g b => some (.acquire, l, g, b)
  | .release l g b => some (.release, l, g, b)
  | .convert l g b => some (.convert, l, g, b)
  | .cancel l g b => some (.cancel, l, g, b)
  | .watch l g b => some (.watch, l, g, b)
  | .query l g b => some (.query, l, g, b)
  | .arrive l g b => some (.arrive, l, g, b)
  | .setLink l g b => some (.setLink, l, g, b)
  | .setWindow l g b => some (.setWindow, l, g, b)
  | .setGroup l g b => some (.setGroup, l, g, b)
  | .setFloor l g b => some (.setFloor, l, g, b)
  | .start l g b => some (.start, l, g, b)
  | .restart l g b => some (.restart, l, g, b)
  | .profile l g b => some (.profile, l, g, b)
  | .evict l g b => some (.evict, l, g, b)
  | .powerOn _ _ | .resetNAssert | .resetNRelease _ _ | .uptimeTick | .leaseDeadlineExpiry _
  | .lockWaitDeadlineExpiry _ | .convertWaitDeadlineExpiry _ | .watchWaitDeadlineExpiry _ | .holdDeadlineExpiry _
  | .arrivalDeadlineExpiry _ _ | .gapTimerExpiry _ | .lengthFault _ _ | .stopBitFault _ _ | .frameReceived _ _
  | .breakEnd _ | .frameTransmitStart _ | .entryTransmitted _ | .unknownKindFrame _ _ _ _
  | .characterReceivedWhole _ _ | .startEdge _ => none

/-- The dispatcher takes frame `f` from link `l` in state `s`: RESET_N is not held, `f` is at the head of that link's intake
queue and the rotation chooses that link. `t` is the state once the frame has left the queue and the rotation has moved
(R141, R152). -/
def TakesFrame (l : LinkNo) (f : Frame) (s t : State) : Prop :=
  ∃ rest turn, s.resetHeld = false ∧ (s.link l).intake = f :: rest ∧ s.nextTurn = some turn ∧ turn.current = l ∧
    t = { s with links := s.links.set l { s.link l with intake := rest }, rotation := turn }

/-- The request passes the common checks (Table 10-2). -/
def PassesChecks (k : ReqKind) (l : LinkNo) (tag : Byte) (body : List Byte) (s : State) : Prop :=
  tag ≠ 0 ∧ body.length = k.bodyLength ∧ (k.isManagement = true → s.management = some l) ∧
  (k.needsSetup = true → s.service = .setup) ∧ (k.needsService = true → s.service = .service) ∧
  (k.needsSession = true → (s.session l).isOpen = true) ∧ (∀ x ∈ (s.session l).tags, x.tag ≠ tag) ∧
  (k.opensTag = true → (s.session l).tags.length < 16)

/-- The dispatcher takes the request, leaving `t`, and the request passes the common checks. -/
def Serves (k : ReqKind) (l : LinkNo) (tag : Byte) (body : List Byte) (s t : State) : Prop :=
  TakesFrame l { kind := k.code, tag := tag, body := body } s t ∧ PassesChecks k l tag body s

/-- The first of the checks of Table 10-2, steps 2 to 8, that the request fails gives this reason. -/
inductive ChecksFail (k : ReqKind) (l : LinkNo) (tag : Byte) (body : List Byte) (s : State) : Reason → Prop where
  | badTag : tag = 0 → ChecksFail k l tag body s .badTag
  | malformed : tag ≠ 0 → body.length ≠ k.bodyLength → ChecksFail k l tag body s .malformed
  | notManager : tag ≠ 0 → body.length = k.bodyLength → k.isManagement = true → s.management ≠ some l →
      ChecksFail k l tag body s .notManager
  | inService : tag ≠ 0 → body.length = k.bodyLength → s.management = some l → k.needsSetup = true →
      s.service = .service → ChecksFail k l tag body s .inService
  | notInService : tag ≠ 0 → body.length = k.bodyLength → (k.isManagement = true → s.management = some l) →
      k.needsService = true → s.service = .setup → ChecksFail k l tag body s .notInService
  | noSession : tag ≠ 0 → body.length = k.bodyLength → k.needsSession = true → s.service = .service →
      (s.session l).state = .closed → ChecksFail k l tag body s .noSession
  | lapsed : tag ≠ 0 → body.length = k.bodyLength → k.needsSession = true → s.service = .service →
      (s.session l).state = .lapsed → ChecksFail k l tag body s .lapsed
  | dupTag : tag ≠ 0 → body.length = k.bodyLength → (k.isManagement = true → s.management = some l) →
      (k.needsSetup = true → s.service = .setup) → (k.needsService = true → s.service = .service) →
      (k.needsSession = true → (s.session l).isOpen = true) → (∃ x ∈ (s.session l).tags, x.tag = tag) →
      ChecksFail k l tag body s .dupTag
  | tagsFull : tag ≠ 0 → body.length = k.bodyLength → k.opensTag = true → s.service = .service →
      (s.session l).isOpen = true → (∀ x ∈ (s.session l).tags, x.tag ≠ tag) → 16 ≤ (s.session l).tags.length →
      ChecksFail k l tag body s .tagsFull

/-! ### Claims, windows and records in the words of the spec -/

/-- The first window, in index order, that is usable and contains the block (R11). -/
def FirstWindow (s : State) (l : LinkNo) (b : Block) (w : Window) : Prop :=
  ∃ k : Fin 4, (s.windows l).get k = w ∧ w.fits b = true ∧ ∀ j, j < k → ((s.windows l).get j).fits b = false

/-- The block passes the exponent, alignment and window checks and the window search finds `w` (R10, R11). -/
def Admits (s : State) (l : LinkNo) (b : Block) (w : Window) : Prop :=
  b.exp ≤ 24 ∧ b.base % 2 ^ b.exp = 0 ∧ FirstWindow s l b w

/-- The claim of record `j` conflicts with the claim (R5, Table 1-4). -/
def ConflictsWith (s : State) (j : RecNo) (b : Block) (m : Mode) : Prop :=
  ∃ c n, (s.record j).state.claim = some (c, n) ∧ b.overlaps c = true ∧ (m = .exclusive ∨ n = .exclusive)

/-- Record `j` is HELD or CONVERTING and overlaps the block (R3). -/
def HoldsOver (s : State) (j : RecNo) (b : Block) : Prop :=
  ∃ c, holdingBlock (s.record j).state = some c ∧ b.overlaps c = true

/-- The lowest-numbered FREE record (R18). -/
def LowestFree (s : State) (i : RecNo) : Prop :=
  (s.record i).state = .free ∧ ∀ j, j < i → (s.record j).state ≠ .free

/-- The link is below its quota (R29 step 1). -/
def BelowQuota (s : State) (l : LinkNo) : Prop := (s.session l).owned ≠ (s.settings l).quota

/-- A hold limit with its deadline armed now, none for limit 0 (R129, R25). -/
def holdFrom (s : State) (limit : Nat) : Option Hold :=
  if limit = 0 then none
  else some { limit := limit, due := { ms := s.uptime + BitVec.ofNat 32 limit, sub := s.clkin } }

/-- A wait deadline armed now, none for the limits 0 and 65535 (R128). -/
def waitFrom (s : State) (limit : Nat) : Option Instant :=
  if limit = 0 ∨ limit = 65535 then none
  else some { ms := s.uptime + BitVec.ofNat 32 limit, sub := s.clkin }

/-! ### What an owner refuses -/

/-- The block that an ACQUIRE, a WATCH or a QUERY names (Table 12-4). -/
def namedBlock (k : ReqKind) (body : List Byte) : Option Block :=
  match k with
  | .acquire => some (AcquireReq.ofBody body).block
  | .watch => some (WatchReq.ofBody body).block
  | .query => some (queryBlock body)
  | .openSession | .closeSession | .renew | .status | .release | .convert | .cancel | .arrive | .setLink | .setWindow
  | .setGroup | .setFloor | .start | .restart | .profile | .evict => none

/-- The ACQUIRE is admitted, with this translated block and mode (R10, R11, R13). -/
def AcquireAdmitted (l : LinkNo) (body : List Byte) (s : State) (b : Block) (m : Mode) : Prop :=
  ∃ w, Admits s l (AcquireReq.ofBody body).block w ∧ Mode.ofCode (AcquireReq.ofBody body).mode = some m ∧
    ¬ (m = .exclusive ∧ w.access = .sharedOnly) ∧ b = w.translate (AcquireReq.ofBody body).block

/-- An ACQUIRE that conflicts with nothing (R36). -/
def GrantsAtOnce (l : LinkNo) (body : List Byte) (s : State) : Prop :=
  ∃ b m, AcquireAdmitted l body s b m ∧ ∀ j, ¬ ConflictsWith s j b m

/-- An ACQUIRE that conflicts and may wait (R38). -/
def MustWait (l : LinkNo) (body : List Byte) (s : State) : Prop :=
  ∃ b m, AcquireAdmitted l body s b m ∧ (∃ j, ConflictsWith s j b m) ∧ (AcquireReq.ofBody body).wait ≠ 0

/-- A WATCH that some holding overlaps and that may wait (R80). -/
def MustWatch (l : LinkNo) (body : List Byte) (s : State) : Prop :=
  ∃ w, Admits s l (WatchReq.ofBody body).block w ∧ (∃ j, HoldsOver s j (w.translate (WatchReq.ofBody body).block)) ∧
    (WatchReq.ofBody body).wait ≠ 0

/-- The outcomes that need a new record (R29). -/
def NeedsRecord (k : ReqKind) (l : LinkNo) (body : List Byte) (s : State) : Prop :=
  k = .acquire ∧ (GrantsAtOnce l body s ∨ MustWait l body s) ∨ k = .watch ∧ MustWatch l body s

/-- The first of these conditions on the fields that holds names this field. -/
def FirstFails : List (Prop × Byte) → Byte → Prop
  | [], _ => False
  | (p, n) :: rest, f => p ∧ f = n ∨ ¬ p ∧ FirstFails rest f

/-- What makes a setting request, an ARRIVE's group, a PROFILE or a STATUS refused BAD_VALUE, in the order of the tests, with
the fields that the refusal names (R92, R162, R163, R164, R167, R169). -/
def badFields (k : ReqKind) (l : LinkNo) (body : List Byte) : List (Prop × Byte) :=
  match k with
  | .setLink =>
      let q := SetLinkReq.ofBody body
      [ (5 < q.link.toNat, 1),
        (1 < q.enabled.toNat ∨ q.enabled = 0 ∧ q.link.toNat = l.val, 2),
        (7 < q.baud, 3), (q.gap < 2 ∨ 250 < q.gap, 4), (q.lease < 50 ∨ 60000 < q.lease, 5),
        (q.quota < 1 ∨ 128 < q.quota, 6), (q.weight < 1 ∨ 4 < q.weight, 7) ]
  | .setWindow =>
      let q := SetWindowReq.ofBody body
      [ (5 < q.link.toNat, 1), (3 < q.index.toNat, 2), (24 < q.exp, 4), (¬ 2 ^ q.exp ∣ q.localBase, 3),
        (¬ 2 ^ q.exp ∣ q.globalBase, 5), (2 < q.access.toNat, 6) ]
  | .setGroup =>
      let q := SetGroupReq.ofBody body
      [ (7 < q.group.toNat, 1), (64 ≤ q.members.toNat, 2), (1 < q.mode.toNat, 3), (q.k < 1 ∨ 6 < q.k, 4),
        (q.members ≠ 0 ∧ memberCount (q.members.setWidth 6) < q.k, 4) ]
  | .profile =>
      let selector := fieldAt body 0 1
      let index := fieldAt body 1 1
      [ (3 < selector, 1),
        (selector = 0 ∧ 5 < index ∨ selector = 1 ∧ 23 < index ∨ selector = 2 ∧ 7 < index ∨ selector = 3 ∧ 0 < index, 2) ]
  | .status => [ (1 < fieldAt body 0 1, 1) ]
  | .arrive => [ (7 < (ArriveReq.ofBody body).group.toNat, 1) ]
  | .evict => [ (5 < (byteAt body 0).toNat ∨ (byteAt body 0).toNat = l.val, 1) ]
  | .openSession | .closeSession | .renew | .acquire | .release | .convert | .cancel | .watch | .query | .setFloor
  | .start | .restart => []

/-- The handle that a RELEASE or a CONVERT carries (Table 12-4). -/
def namedHandle (k : ReqKind) (body : List Byte) : Option Nat :=
  match k with
  | .release => some (fieldAt body 0 2)
  | .convert => some (ConvertReq.ofBody body).handle
  | .openSession | .closeSession | .renew | .status | .acquire | .cancel | .watch | .query | .arrive | .setLink
  | .setWindow | .setGroup | .setFloor | .start | .restart | .profile | .evict => none

/-- A valid handle and its record (R22). -/
def ValidHandle (s : State) (l : LinkNo) (handle : Nat) (i : RecNo) : Prop :=
  i.val = handle % 128 ∧ (s.record i).state.owner = some l ∧ (s.record i).reuse.toNat = handle / 128

/-- A request that has passed the common checks is refused by its owner, with this reason and detail: the checks that the
other statements of the request do not name. -/
inductive OwnerRefuses (l : LinkNo) (body : List Byte) (s : State) : ReqKind → Reason → Byte → Prop where
  /-- R10 step 1. -/
  | exponent (k b) : namedBlock k body = some b → 24 < b.exp → OwnerRefuses l body s k .badBlock 2
  /-- R10 step 2. -/
  | alignment (k b) : namedBlock k body = some b → b.exp ≤ 24 → ¬ 2 ^ b.exp ∣ b.base →
      OwnerRefuses l body s k .badBlock 1
  /-- R10 step 3. -/
  | mode : (AcquireReq.ofBody body).block.exp ≤ 24 →
      2 ^ (AcquireReq.ofBody body).block.exp ∣ (AcquireReq.ofBody body).block.base →
      1 < (AcquireReq.ofBody body).mode.toNat → OwnerRefuses l body s .acquire .badValue 3
  /-- R10 step 5. -/
  | outOfWindow (k b) : namedBlock k body = some b → b.exp ≤ 24 → 2 ^ b.exp ∣ b.base →
      (k = .acquire → (AcquireReq.ofBody body).mode.toNat ≤ 1) → (∀ w, ¬ FirstWindow s l b w) →
      OwnerRefuses l body s k .outOfWindow 0
  /-- R10 step 6. -/
  | access (w) : Admits s l (AcquireReq.ofBody body).block w → (AcquireReq.ofBody body).mode = 1 → w.access = .sharedOnly →
      OwnerRefuses l body s .acquire .access 3
  /-- R29 step 1. -/
  | quota (k) : NeedsRecord k l body s → (s.session l).owned = (s.settings l).quota → OwnerRefuses l body s k .quota 0
  /-- R29 step 2. -/
  | poolFull (k) : NeedsRecord k l body s → (s.session l).owned ≠ (s.settings l).quota →
      (∀ i, (s.record i).state ≠ .free) → OwnerRefuses l body s k .noRoom 0
  /-- R29 step 3. -/
  | waitListFull (i) : MustWait l body s → (s.session l).owned ≠ (s.settings l).quota → (s.record i).state = .free →
      64 ≤ s.waitList.length → OwnerRefuses l body s .acquire .noRoom 0
  /-- R29 step 4. -/
  | watchListFull (i) : MustWatch l body s → (s.session l).owned ≠ (s.settings l).quota → (s.record i).state = .free →
      16 ≤ s.watchList.length → OwnerRefuses l body s .watch .noRoom 0
  /-- R31, R36. -/
  | tokensSpent (i) : GrantsAtOnce l body s → (s.session l).owned ≠ (s.settings l).quota → (s.record i).state = .free →
      s.tokens = 0xFFFFFFFF → OwnerRefuses l body s .acquire .tokensSpent 0
  /-- R22. -/
  | staleHandle (k h) : namedHandle k body = some h → (∀ i, ¬ ValidHandle s l h i) →
      OwnerRefuses l body s k .staleHandle 1
  /-- R56. -/
  | releaseNotHeld (i) : ValidHandle s l (fieldAt body 0 2) i →
      (s.record i).state.isWaiting = true ∨ (s.record i).state.isWatching = true →
      OwnerRefuses l body s .release .notHeld 0
  /-- R59 step 2. -/
  | convertMode (i) : ValidHandle s l (ConvertReq.ofBody body).handle i → 1 < (ConvertReq.ofBody body).mode.toNat →
      OwnerRefuses l body s .convert .badValue 2
  /-- R59 step 3. -/
  | convertNotHeld (i) : ValidHandle s l (ConvertReq.ofBody body).handle i → (ConvertReq.ofBody body).mode.toNat ≤ 1 →
      (s.record i).state.isWaiting = true ∨ (s.record i).state.isConverting = true ∨
        (s.record i).state.isWatching = true →
      OwnerRefuses l body s .convert .notHeld 0
  /-- R59 step 4. -/
  | sameMode (i b m t h) : ValidHandle s l (ConvertReq.ofBody body).handle i →
      (s.record i).state = .held l b m t h → Mode.ofCode (ConvertReq.ofBody body).mode = some m →
      OwnerRefuses l body s .convert .sameMode 2
  /-- R122. -/
  | notOpen : (∀ x ∈ (s.session l).tags, x.tag ≠ byteAt body 0) → OwnerRefuses l body s .cancel .notOpen 1
  /-- R92 step 2. -/
  | notMember (g : GroupNo) : (ArriveReq.ofBody body).group.toNat = g.val → (s.groupDef g).has l = false →
      OwnerRefuses l body s .arrive .notMember 0
  /-- R92 step 3. -/
  | alreadyArrived (g : GroupNo) (a) : (ArriveReq.ofBody body).group.toNat = g.val → (s.groupDef g).has l = true →
      a ∈ (s.group g).arrivals → a.link = l → OwnerRefuses l body s .arrive .alreadyArrived 0
  /-- R92 step 1, R162, R163, R164, R167, R168, R169. -/
  | badValue (k f) : FirstFails (badFields k l body) f → OwnerRefuses l body s k .badValue f
  /-- R168 step 3. -/
  | evictNoSession (n : LinkNo) : (byteAt body 0).toNat = n.val → n ≠ l → (s.session n).isOpen = false →
      OwnerRefuses l body s .evict .noSession 0

/-! ### Results in the words of the spec -/

/-- The state with one more message queued for link `l`, a reply in a free entry. -/
def withReply (l : LinkNo) (tag : Byte) (m : Message) (t : State) : State :=
  { t with
    links := t.links.set l { t.link l with
      outbound := (t.link l).outbound ++ [{ tag := tag, msg := m, adopts := false }] } }

/-- A record returned to FREE (R19). -/
def freed (r : Record) : Record := { reuse := r.reuse + 1, state := .free }

/-- The lease of link `l`'s session re-armed when the session is OPEN (R113). -/
def leaseRenewed (l : LinkNo) (s : State) : State :=
  match (s.session l).state with
  | .opened _ e =>
      { s with sessions := s.sessions.set l { s.session l with
          state := .opened { ms := s.uptime + BitVec.ofNat 32 (s.settings l).lease, sub := s.clkin } e } }
  | .closed | .lapsed => s

/-- A counter of a link after its fault: raised by one, 255 staying 255 (R145). -/
def raised (c : Byte) : Byte := if c.toNat < 255 then c + 1 else c

/-- The entries that outlive a flush: the frame in transmission (R156). -/
def survivors (u : LinkUnit) : List OutEntry :=
  match u.transmitter with
  | .sending .. => u.outbound.take 1
  | .idle | .finishing .. => []

/-- The entries that a flush discards (R156). -/
def discarded (u : LinkUnit) : List OutEntry := u.outbound.drop (survivors u).length

/-- What power-on and RESET_N alike leave: the time base at 0, the default profile, fresh link units, CLOSED sessions, empty
lists, IDLE groups at generation 0 and the rotation at link 0 (R20, R107, R108, R125, R135, R141, R144, R145, R148, R152,
R161). -/
def FreshlyReset (t : State) : Prop :=
  t.uptime = 0 ∧ t.clkin = 0 ∧ t.waitList = [] ∧ t.watchList = [] ∧ t.rotation = { current := 0, taken := 0 } ∧
  (∀ l, t.settings l = { enabled := true, baud := 4, gap := 8, lease := 5000, quota := 32, weight := 1 }) ∧
  (∀ l (k : Fin 4), (t.windows l).get k =
    if k = 0 then { localBase := 0, exp := 24, globalBase := 0, access := .full }
    else { localBase := 0, exp := 0, globalBase := 0, access := .noAccess }) ∧
  (∀ g, t.groupDef g = { members := 0, mode := .all, k := 1 }) ∧
  (∀ l, t.link l = { receiver := .hunt, inCharacter := false, gapTimer := .stopped, intake := [], outbound := [],
                     reserved := 0, transmitter := .idle,
                     counters := { framing := 0, length := 0, check := 0, gap := 0, discard := 0 }, baud := 4, gap := 8 }) ∧
  (∀ l, t.session l = { state := .closed, tags := [], owned := 0 }) ∧
  (∀ g, t.group g = { generation := 0, arrivals := [] })

/-- The strap levels ask for autostart (R158). -/
def Autostarts (msel : Fin 8) (astart : Bool) : Prop := astart = true ∨ 6 ≤ msel.val

/-- Characters received whole on link `l`, one after the other. -/
def receiveAll (l : LinkNo) : List Byte → State → Host.Outcome State Fault Refusal
  | [], s => .next s
  | v :: rest, s =>
      match exec (.characterReceivedWhole l v) s with
      | .next t => receiveAll l rest t
      | r => r

/-! ### What an event leaves as it was -/

/-- Straps, service state, epoch, time base, profile, rotation and the model's queue are as they were. -/
def SameControl (s u : State) : Prop :=
  u.resetHeld = s.resetHeld ∧ u.straps = s.straps ∧ u.service = s.service ∧ u.epoch = s.epoch ∧ u.uptime = s.uptime ∧
  u.clkin = s.clkin ∧ u.profile = s.profile ∧ u.rotation = s.rotation ∧ u.pending = s.pending

/-- What the events of one step queue for link `m`, in order, each into its tag's reservation: the notices join the outbound
queue, the reservations they fill are gone, and their tags are closed (R121, R148). -/
def QueuedFor (s u : State) (m : LinkNo) (notices : List OutEntry) : Prop :=
  u.link m = { s.link m with
    outbound := (s.link m).outbound ++ notices, reserved := (s.link m).reserved - notices.length } ∧
  (u.session m).state = (s.session m).state ∧
  (u.session m).tags = (s.session m).tags.filter (fun x => ∀ e ∈ notices, e.tag ≠ x.tag)

/-! ### The grant scan -/

/-- The hold limit of a record that becomes HELD, with its deadline armed now (R25, R39). -/
def holdArmed (s : State) (limit : Option Nat) : Option Hold :=
  limit.map fun n => { limit := n, due := { ms := s.uptime + BitVec.ofNat 32 n, sub := s.clkin } }

/-- A holding conflicts with the claim, CONVERTING records being judged EXCLUSIVE (R4, R5). -/
def HoldingConflicts (s : State) (j : RecNo) (b : Block) (m : Mode) : Prop :=
  ∃ c n, (s.record j).state.holding = some (c, n) ∧ b.overlaps c = true ∧ (m = .exclusive ∨ n = .exclusive)

/-- A WAITING record conflicts with the claim (R5). -/
def WaitingConflicts (s : State) (j : RecNo) (b : Block) (m : Mode) : Prop :=
  ∃ o c n g d h, (s.record j).state = .waiting o c n g d h ∧ b.overlaps c = true ∧ (m = .exclusive ∨ n = .exclusive)

/-- A CONVERTING record that no other holding overlaps (R44). -/
def ConverterFree (s : State) (i : RecNo) : Prop :=
  ∃ o b t g d h, (s.record i).state = .converting o b t g d h ∧ ∀ j, j ≠ i → ¬ HoldsOver s j b

/-- A WAITING record that conflicts with no holding and with no record before it in the wait list (R45). -/
def WaiterFree (s : State) (i : RecNo) : Prop :=
  ∃ before after o b m g d h, s.waitList = before ++ i :: after ∧ (s.record i).state = .waiting o b m g d h ∧
    (∀ j, ¬ HoldingConflicts s j b m) ∧ ∀ j ∈ before, ¬ WaitingConflicts s j b m

/-- The state of a record granted with this token: a converter in mode EXCLUSIVE with its hold deadline running on (R44), a
waiter in its requested mode with its hold deadline armed (R46). -/
def grantedAs (s : State) (token : Word) : RecState → RecState
  | .converting o b _ _ _ h => .held o b .exclusive token h
  | .waiting o b m _ _ h => .held o b m token (holdArmed s h)
  | .free => .free
  | .held o b m t h => .held o b m t h
  | .watching o b g d => .watching o b g d

/-- The GRANTED notice of a record granted with this token, with its link: its handle, the token and the mode under its tag
(R44, R46). -/
def grantNotice (s : State) (i : RecNo) (token : Word) : Option (LinkNo × OutEntry) :=
  match (s.record i).state with
  | .converting o _ _ g _ _ => some (o, { tag := g, msg := .granted (s.handle i) token .exclusive, adopts := false })
  | .waiting o _ m g _ _ => some (o, { tag := g, msg := .granted (s.handle i) token m, adopts := false })
  | .free | .held .. | .watching .. => none

/-- The FIRED notice of a watch, with its link (R82). -/
def fireNotice (s : State) (i : RecNo) : Option (LinkNo × OutEntry) :=
  match (s.record i).state with
  | .watching o _ g _ => some (o, { tag := g, msg := .fired (s.handle i), adopts := false })
  | .free | .waiting .. | .held .. | .converting .. => none

/-- The notices of a scan for one link, in the order of its decisions: the grants, numbered from the next token on, then the
firings (R30, R49). -/
def scanNotices (s : State) (granted fired : List RecNo) (l : LinkNo) : List OutEntry :=
  ((granted.zipIdx.filterMap (fun x => grantNotice s x.1 (s.tokens + BitVec.ofNat 32 (x.2 + 1))) ++
    fired.filterMap (fireNotice s)).filter (·.1 = l)).map (·.2)

/-- What a grant scan of `s` decides and leaves as `t`: it grants the records of `granted` and fires those of `fired`, each in
that order. -/
structure ScanOutcome (s t : State) (granted fired : List RecNo) : Prop where
  /-- Granted are the free converters in increasing record number, then the free waiters in wait-list order, as many as there
  are tokens left (R44, R45, R48). -/
  chosen : ∃ converters waiters : List RecNo, converters.Pairwise (· < ·) ∧ (∀ i, i ∈ converters ↔ ConverterFree s i) ∧
    waiters.Sublist s.waitList ∧ (∀ i, i ∈ waiters ↔ WaiterFree s i) ∧
    granted = (converters ++ waiters).take (0xFFFFFFFF - s.tokens.toNat)
  /-- Fired are, in watch-list order, the watches that no holding left by the grants overlaps (R47). -/
  fires : fired.Sublist s.watchList ∧
    ∀ i, i ∈ fired ↔ ∃ o b g d, (s.record i).state = .watching o b g d ∧ ∀ j, ¬ HoldsOver t j b
  /-- Each grant takes the next token (R30). -/
  tokens : t.tokens = s.tokens + BitVec.ofNat 32 granted.length
  grants : ∀ k i, granted[k]? = some i → t.record i =
    { reuse := (s.record i).reuse, state := grantedAs s (s.tokens + BitVec.ofNat 32 (k + 1)) (s.record i).state }
  firings : ∀ i ∈ fired, t.record i = freed (s.record i)
  others : ∀ i, i ∉ granted → i ∉ fired → t.record i = s.record i
  waitList : t.waitList = s.waitList.filter (· ∉ granted)
  watchList : t.watchList = s.watchList.filter (· ∉ fired)
  notices : ∀ l, QueuedFor s t l (scanNotices s granted fired l)
  owned : ∀ l, (t.session l).owned =
    (s.session l).owned - (fired.filter (fun i => (s.record i).state.owner = some l)).length
  control : SameControl s t ∧ t.groups = s.groups

/-- A move that a grant scan makes on a record (R44, R46, R82). -/
inductive ScanMove (s u : State) : RecState → RecState → Prop where
  | grantWaiter (o b m g d h t) : s.tokens < t → t ≤ u.tokens →
      ScanMove s u (.waiting o b m g d h) (.held o b m t (holdArmed s h))
  | grantConverter (o b t₀ g d h t) : s.tokens < t → t ≤ u.tokens →
      ScanMove s u (.converting o b t₀ g d h) (.held o b .exclusive t h)
  | fire (o b g d) : ScanMove s u (.watching o b g d) .free

/-- A record stays as it is, or makes a move: its reuse count is then incremented on a return to FREE and kept otherwise (R18,
R19). -/
def StaysOr (move : RecState → RecState → Prop) (a b : Record) : Prop :=
  b = a ∨ move a.state b.state ∧ b.reuse = if b.state = .free then a.reuse + 1 else a.reuse

/-- A notice that the scan of an event queues for link `m` about its record `i`: GRANTED with the record's new token and mode,
or FIRED, under the tag that the record waited under (R46, R82). -/
def ScanNotice (s u : State) (m : LinkNo) (i : RecNo) (e : OutEntry) : Prop :=
  ∃ x, waitsUnder i (s.record i).state = some (m, x) ∧ e.tag = x.tag ∧ e.adopts = false ∧
    (e.msg = .fired (s.handle i) ∧ (u.record i).state = .free ∨
     ∃ o b n t h, (u.record i).state = .held o b n t h ∧ e.msg = .granted (s.handle i) t n)

/-- The notices that the scan of an event queues for link `m`: one for each of its records that moves, and no other. -/
def ScanNotices (s u : State) (m : LinkNo) (notices : List OutEntry) : Prop :=
  (∀ e ∈ notices, ∃ i, ScanNotice s u m i e) ∧
  ∀ i, (s.record i).state.owner = some m → u.record i ≠ s.record i → ∃ e ∈ notices, ScanNotice s u m i e

/-! ### Ends of a session -/

/-- The BROKEN (MEMBER_LOST) notices that a failure end of link `n` queues for link `m`: one for each of its entries in a
round of a group that has `n` as a member, groups in increasing number, with the round's generation (R103). -/
def brokenNotices (s : State) (n m : LinkNo) : List OutEntry :=
  (List.finRange 8).flatMap fun g =>
    if (s.groupDef g).has n = true then
      ((s.group g).arrivals.filter (fun a => a.link ≠ n ∧ a.link = m)).map fun a =>
        { tag := a.tag, msg := .broken g (s.group g).generation .memberLost, adopts := false }
    else []

/-- What a failure end of link `n` does to the lock engine and the barrier unit (R74, R75, R103), from `s` to `u`: its
records are freed, a scan grants and fires for the other links, then its groups' gathering rounds are broken. -/
def FailureEnded (n : LinkNo) (s u : State) : Prop :=
  SameControl s u ∧ s.tokens ≤ u.tokens ∧
  (∀ i, (s.record i).state.owner = some n → u.record i = freed (s.record i)) ∧
  (∀ i, (s.record i).state.owner ≠ some n → StaysOr (ScanMove s u) (s.record i) (u.record i)) ∧
  (∀ g, u.group g =
    if (s.groupDef g).has n = true ∧ (s.group g).arrivals ≠ []
    then { generation := (s.group g).generation + 1, arrivals := [] } else s.group g) ∧
  (u.session n).tags = [] ∧
  (∀ m, m ≠ n → ∃ scan, ScanNotices s u m scan ∧ QueuedFor s u m (scan ++ brokenNotices s n m))

/-- The entries of a group's list once link `n` has withdrawn. -/
def remaining (s : State) (n : LinkNo) (g : GroupNo) : List Arrival := (s.group g).arrivals.filter (·.link ≠ n)

/-- The round of a group in mode ALL that the CLOSE of its member `n` completes: an entry remains, and every other live member
has arrived (R105). -/
abbrev CompletesAtClose (s : State) (n : LinkNo) (g : GroupNo) : Prop :=
  (s.groupDef g).mode = .all ∧ (s.groupDef g).has n = true ∧ remaining s n g ≠ [] ∧
  ∀ m, m ≠ n → s.isLive g m = true → ∃ a ∈ remaining s n g, a.link = m

/-- The PASSED notices that the CLOSE of link `n` queues for link `m`: for each of its entries in a round so completed, groups
in increasing number, the generation, the entry's rank and the number of entries (R105). -/
def passedNotices (s : State) (n m : LinkNo) : List OutEntry :=
  (List.finRange 8).flatMap fun g =>
    if CompletesAtClose s n g then
      ((remaining s n g).zipIdx.filter (·.1.link = m)).map fun x =>
        { tag := x.1.tag, adopts := false
          msg := .passed g (s.group g).generation (x.2 + 1) (remaining s n g).length }
    else []

/-! ### The moves of a record (Table 2-3) -/

/-- The commands that run the grant scan (R42). -/
def Scans : Instr → Prop
  | .release .. | .convert .. | .cancel .. | .closeSession .. | .evict .. | .breakEnd .. | .leaseDeadlineExpiry ..
  | .lockWaitDeadlineExpiry .. | .convertWaitDeadlineExpiry .. | .watchWaitDeadlineExpiry .. | .holdDeadlineExpiry .. => True
  | .powerOn .. | .resetNAssert | .resetNRelease .. | .uptimeTick | .arrivalDeadlineExpiry .. | .gapTimerExpiry ..
  | .lengthFault .. | .stopBitFault .. | .frameReceived .. | .frameTransmitStart .. | .entryTransmitted ..
  | .unknownKindFrame .. | .openSession .. | .renew .. | .status .. | .acquire .. | .watch .. | .query .. | .arrive ..
  | .setLink .. | .setWindow .. | .setGroup .. | .setFloor .. | .start .. | .restart .. | .profile ..
  | .characterReceivedWhole .. | .startEdge .. => False

/-- The command ends the session of link `o`, or clears the whole pool: the events on which Table 2-3 frees every record of
`o`. -/
def Clears (c : Instr) (o : LinkNo) : Prop :=
  c = .leaseDeadlineExpiry o ∨ c = .breakEnd o ∨ (∃ g b, c = .closeSession o g b) ∨
  (∃ l g b, c = .evict l g b ∧ (byteAt b 0).toNat = o.val) ∨ (∃ l g b, c = .restart l g b) ∨ c = .resetNAssert

/-- The command is a CANCEL by link `o` of this tag. -/
def Cancels (c : Instr) (o : LinkNo) (tag : Byte) : Prop := ∃ g b, c = .cancel o g b ∧ byteAt b 0 = tag

/-- The command is a CONVERT by link `o` of record `i` to this mode. -/
def ConvertsTo (c : Instr) (o : LinkNo) (tag : Byte) (i : RecNo) (m : Mode) : Prop :=
  ∃ b, c = .convert o tag b ∧ (ConvertReq.ofBody b).handle % 128 = i.val ∧ Mode.ofCode (ConvertReq.ofBody b).mode = some m

/-- A row of Table 2-3 for record `i`, with its event and what R18, R24, R25 and R30 say of the fields. -/
inductive TableMove (c : Instr) (s t : State) (i : RecNo) : RecState → RecState → Prop where
  | byScan (x y) : Scans c → ScanMove s t x y → TableMove c s t i x y
  | grantedAtOnce (l g body b m limit) : c = .acquire l g body → t.tokens = s.tokens + 1 → s.tokens < t.tokens →
      TableMove c s t i .free (.held l b m t.tokens (holdFrom s limit))
  | mustWait (l g body b m d h) : c = .acquire l g body → TableMove c s t i .free (.waiting l b m g d h)
  | mustWatch (l g body b d) : c = .watch l g body → TableMove c s t i .free (.watching l b g d)
  | waitEnds (o b m g d h) : Cancels c o g ∨ c = .lockWaitDeadlineExpiry i ∨ Clears c o →
      TableMove c s t i (.waiting o b m g d h) .free
  | downgraded (o b k g h) : ConvertsTo c o g i .shared →
      TableMove c s t i (.held o b .exclusive k h) (.held o b .shared k h)
  | upgraded (o b k g h) : ConvertsTo c o g i .exclusive → t.tokens = s.tokens + 1 → s.tokens < t.tokens →
      TableMove c s t i (.held o b .shared k h) (.held o b .exclusive t.tokens h)
  | convertMustWait (o b k g d h) : ConvertsTo c o g i .exclusive →
      TableMove c s t i (.held o b .shared k h) (.converting o b k g d h)
  | conversionEnds (o b k g d h) : Cancels c o g ∨ c = .convertWaitDeadlineExpiry i →
      TableMove c s t i (.converting o b k g d h) (.held o b .shared k h)
  | holdingEnds (x o) : x.holding ≠ none → x.owner = some o →
      (∃ g b, c = .release o g b ∧ fieldAt b 0 2 % 128 = i.val) ∨ c = .holdDeadlineExpiry i ∨ Clears c o →
      TableMove c s t i x .free
  | watchEnds (o b g d) : Cancels c o g ∨ c = .watchWaitDeadlineExpiry i ∨ Clears c o →
      TableMove c s t i (.watching o b g d) .free

/-! ### The passing of time -/

/-- One millisecond after the deadline's due point lies before the instant `later` (R127). -/
def LatestPassed (later d : Instant) : Prop :=
  (later.ms - (d.ms + 1)).toNat < 2 ^ 31 ∧ (later.ms = d.ms + 1 → d.sub < later.sub)

/-- No armed deadline's latest moment lies before the instant `later`. -/
def NothingOverdue (later : Instant) (s : State) : Prop := ∀ c d, Armed s c d → ¬ LatestPassed later d

/-- Expiries, each of a deadline whose latest moment lies before the instant `later`, taken one after the other. -/
def Delivers (later : Instant) : List Instr → State → State → Prop
  | [], s, t => s = t
  | c :: rest, s, t => ∃ d u, Armed s c d ∧ LatestPassed later d ∧ exec c s = .next u ∧ Delivers later rest u t

/-- The end of the current CLKIN period, the 18,432nd being the end of the millisecond (R125). -/
def periodEnd (s : State) : Instant :=
  if s.clkin.val = 18431 then { ms := s.uptime + 1, sub := 0 } else { ms := s.uptime, sub := s.clkin + 1 }

/-- One CLKIN period at a link unit's gap timer: at the adopted gap limit, in character times of ten bit times at the adopted
code, GAP is counted and the frame in assembly abandoned; while the line stays low after a stop-bit fault the limit does
not run out (R133, R137, R142). -/
def gapPassed (u : LinkUnit) : LinkUnit :=
  match u.gapTimer with
  | .stopped => u
  | .lineLow k => { u with gapTimer := .lineLow (k + 1) }
  | .running k =>
      if k + 1 < u.gap * (10 * bitPeriods u.baud) then { u with gapTimer := .running (k + 1) }
      else { u with receiver := .hunt, gapTimer := .stopped, counters := { u.counters with gap := raised u.counters.gap } }

/-- The link unit once it has adopted the profile's settings (R147). -/
def adopted (p : LinkSettings) (u : LinkUnit) : LinkUnit :=
  if u.baud = p.baud ∧ u.gap = p.gap then u
  else { u with receiver := .hunt, gapTimer := .stopped, baud := p.baud, gap := p.gap }

/-- One CLKIN period at a link unit's transmitter: at the end of the last stop bit the entry leaves the queue (R144, R147). -/
def bitPassed (p : LinkSettings) (u : LinkUnit) : LinkUnit :=
  match u.transmitter with
  | .idle => u
  | .finishing b c k =>
      { u with transmitter := if k + 1 < 10 * bitPeriods b then .finishing b c (k + 1) else .idle }
  | .sending b cs k =>
      if k + 1 < cs.length * (10 * bitPeriods b) then { u with transmitter := .sending b cs (k + 1) }
      else
        match u.outbound with
        | [] => { u with transmitter := .idle }
        | e :: rest =>
            let v := { u with outbound := rest, transmitter := .idle }
            if e.adopts = true then adopted p v else v

end Sys2Proof.Safety
end

