-- ==== Sys2Proof/WellFormed.lean ====
section
/-! DEFINITION. Which commands can name an event at all, whatever the state: the checks on a command's own fields. -/

namespace Sys2Proof

/-- The nineteen request kind codes of Table 12-3. -/
def requestKindCodes : List Byte :=
  [0x01, 0x02, 0x03, 0x04, 0x10, 0x11, 0x12, 0x13, 0x14, 0x15, 0x20,
   0x30, 0x31, 0x32, 0x33, 0x34, 0x35, 0x36, 0x37]

/-- A frame's body is 0 to 56 bytes (Table 12-2), so no longer body can stand in an intake queue. -/
def bodyFits (body : List Byte) : Bool := body.length ≤ 56

/-- A length byte that begins no body: 0, 1 or 59 to 255 (Figure 9-2). -/
def badLengthByte (v : Byte) : Bool := v.toNat < 2 || 58 < v.toNat

/-- The checks on a command's own fields. -/
def Instr.wellFormed : Instr → Bool
  | .lengthFault _ v => badLengthByte v
  | .unknownKindFrame _ kind _ body => bodyFits body && !(requestKindCodes.contains kind)
  | .openSession _ _ body | .closeSession _ _ body | .renew _ _ body | .status _ _ body
  | .acquire _ _ body | .release _ _ body | .convert _ _ body | .cancel _ _ body
  | .watch _ _ body | .query _ _ body | .arrive _ _ body
  | .setLink _ _ body | .setWindow _ _ body | .setGroup _ _ body | .setFloor _ _ body
  | .start _ _ body | .restart _ _ body | .profile _ _ body | .evict _ _ body => bodyFits body
  | .powerOn _ _ | .resetNAssert | .resetNRelease _ _ | .uptimeTick
  | .leaseDeadlineExpiry _ | .lockWaitDeadlineExpiry _ | .convertWaitDeadlineExpiry _
  | .watchWaitDeadlineExpiry _ | .holdDeadlineExpiry _ | .arrivalDeadlineExpiry _ _
  | .gapTimerExpiry _ | .stopBitFault _ _ | .frameReceived _ _ | .breakEnd _
  | .frameTransmitStart _ | .entryTransmitted _ | .characterReceivedWhole _ _ | .startEdge _ => true

end Sys2Proof
end

