-- ==== Sys2Proof/Certificates/Slice0/Obligations.lean ====
section
/-! DEFINITION. The statements for the provers. -/

open Sys2Proof Sys2Proof.Machine Sys2Proof.Safety

/-! ### The step -/

/-- A step takes the command at the front of the queue and runs it on the state with the queue's rest. The queue is the
model's own: log entry 11. -/
def Obligations.StepRunsFrontCommand : Prop :=
  ∀ (c : Instr) (rest : List Instr) (s : State),
    step { s with pending := c :: rest } = exec c { s with pending := rest }

/-- Every command answers a next state in every state, and leaves the queue of waiting commands as it is. That no command
stops is the model's reading of the spec: log entries 2 and 12. -/
def Obligations.EveryCommandCompletes : Prop :=
  ∀ (c : Instr) (s : State), ∃ t, exec c s = .next t ∧ t.pending = s.pending

/-! ### Resets and time -/

/-- POWER_ON clears everything; the straps decide the management link and autostart (R20, R33, R158, R160). That RESET_N
stands high after it is the model's choice: log entry 9. -/
def Obligations.PowerOnClearsAll : Prop :=
  ∀ (msel : Fin 8) (astart : Bool) (s : State), ∃ t, exec (.powerOn msel astart) s = .next t ∧
    FreshlyReset t ∧ t.tokens = 0 ∧ (∀ i, t.record i = { reuse := 0, state := .free }) ∧
    t.resetHeld = false ∧ t.straps = { msel := msel, astart := astart } ∧
    (∀ h : msel.val < 6, t.management = some ⟨msel.val, h⟩) ∧ (6 ≤ msel.val → t.management = none) ∧
    (Autostarts msel astart → t.service = .service ∧ t.epoch = 1 ∧ t.run = true) ∧
    (¬ Autostarts msel astart → t.service = .setup ∧ t.epoch = 0 ∧ t.run = false)

/-- The falling edge of RESET_N sets every value but the token counter, the epoch, the straps and the reuse counts; a record
in use has its reuse count incremented once (R20, R33, R158, R160). That the straps keep their latched values is log entry
8. -/
def Obligations.ResetNAssertSetsValues : Prop :=
  ∀ s : State, s.resetHeld = false → ∃ t, exec .resetNAssert s = .next t ∧
    FreshlyReset t ∧ t.resetHeld = true ∧ t.service = .setup ∧ t.run = false ∧
    t.tokens = s.tokens ∧ t.epoch = s.epoch ∧ t.straps = s.straps ∧
    (∀ i, (s.record i).state = .free → t.record i = s.record i) ∧
    (∀ i, (s.record i).state ≠ .free → t.record i = freed (s.record i))

/-- The rising edge of RESET_N latches the straps and makes the autostart they ask for; nothing else changes (R158, R160). -/
def Obligations.ResetNReleaseLatchesStraps : Prop :=
  ∀ (msel : Fin 8) (astart : Bool) (s : State), s.resetHeld = true →
    (Autostarts msel astart → exec (.resetNRelease msel astart) s =
      .next { s with resetHeld := false, straps := { msel := msel, astart := astart },
                     epoch := s.epoch + 1, service := .service }) ∧
    (¬ Autostarts msel astart → exec (.resetNRelease msel astart) s =
      .next { s with resetHeld := false, straps := { msel := msel, astart := astart } })

/-- While RESET_N is held low, no command but POWER_ON and the release changes anything (R158). That a command which cannot
come about leaves the state as it is, is the model's choice: log entry 2. -/
def Obligations.ResetHeldFreezesThePart : Prop :=
  ∀ (c : Instr) (s : State), s.resetHeld = true → (∀ m a, c ≠ .powerOn m a) → (∀ m a, c ≠ .resetNRelease m a) →
    exec c s = .next s

/-- Time passes. Each UPTIME_TICK, and each idle step, first delivers the expiries that its end would leave more than one
millisecond late, and no other (R127); the tick then raises the uptime by one modulo 2^32, and the idle step counts one
CLKIN period, the 18,432nd ending the millisecond (R125), at the time base, at the gap timers and at the transmitters (R133,
R137, R144); the gap limit does not run out while the line stays low after a stop-bit fault (R142), and the frame of a SET_LINK
DONE makes its adoption (R147). That an idle step is a CLKIN period and a tick the rest of its millisecond is log entry 3, that they deliver
expiries log entry 5, what an adoption leaves of a character in reception log entry 13, how the timer holds a low line log entry
14, and which of expiry, gap limit and last stop bit comes first in one period log entry 15: the model's choices. -/
def Obligations.TimePassesAndDelivers : Prop :=
  ∀ s : State, s.resetHeld = false →
    (NothingOverdue { ms := s.uptime + 1, sub := 0 } s →
      exec .uptimeTick s = .next { s with uptime := s.uptime + 1, clkin := 0 }) ∧
    (NothingOverdue (periodEnd s) s → s.pending = [] →
      step s = .next { s with
        uptime := (periodEnd s).ms
        clkin := (periodEnd s).sub
        links := Vector.ofFn fun l => bitPassed (s.settings l) (gapPassed (s.link l)) }) ∧
    (DeadlinesInTime s → (∀ g, ((s.group g).arrivals.map (·.link)).Nodup) →
      (∃ expiries u, Delivers { ms := s.uptime + 1, sub := 0 } expiries s u ∧
        NothingOverdue { ms := s.uptime + 1, sub := 0 } u ∧
        exec .uptimeTick s = .next { u with uptime := s.uptime + 1, clkin := 0 }) ∧
      (s.pending = [] → ∃ expiries u, Delivers (periodEnd s) expiries s u ∧ NothingOverdue (periodEnd s) u ∧
        step s = .next { u with
          uptime := (periodEnd s).ms
          clkin := (periodEnd s).sub
          links := Vector.ofFn fun l => bitPassed (u.settings l) (gapPassed (u.link l)) }))

/-- A deadline armed at an interval has fallen due, `n` milliseconds' count later, exactly when the whole interval has
elapsed, counted in CLKIN periods; the wrap of the uptime plays no part (R126, R127). That a due point keeps the place of its
arming within the millisecond is log entry 5. -/
def Obligations.DeadlinesFallDueInFull : Prop :=
  ∀ (s t : State) (n interval : Nat), n < 2 ^ 31 → 1 ≤ interval → interval ≤ 65535 →
    t.uptime = s.uptime + BitVec.ofNat 32 n →
    (t.reached (s.due interval) = true ↔ interval * 18432 + s.clkin.val ≤ n * 18432 + t.clkin.val)

/-! ### Expiries -/

/-- The expiry of a lease lapses the session: tags dropped, queue flushed, ENDED queued into the session reservation,
records reclaimed, rounds broken (R114, R156, R74, R103). -/
def Obligations.LeaseExpiryLapsesSession : Prop :=
  ∀ (l : LinkNo) (d : Instant) (e : Half) (s : State), s.resetHeld = false →
    (s.session l).state = .opened d e → s.reached d = true →
    ∃ u, exec (.leaseDeadlineExpiry l) s = .next u ∧ FailureEnded l s u ∧ (u.session l).state = .lapsed ∧
      (u.link l).outbound = survivors (s.link l) ++ [{ tag := 0, msg := .ended .lapsed, adopts := false }] ∧
      (u.link l).reserved = 0 ∧ (u.link l).intake = (s.link l).intake ∧ (u.link l).counters = (s.link l).counters ∧
      (u.link l).transmitter = (s.link l).transmitter

/-- The expiry of a lock wait frees the record, queues TIMED_OUT into the tag's reservation, closes the tag, returns the hold
reservation and runs the grant scan (R51). -/
def Obligations.LockWaitExpiryFreesRecord : Prop :=
  ∀ (i : RecNo) (o : LinkNo) (b : Block) (m : Mode) (tag : Byte) (d : Instant) (h : Option Nat) (s : State),
    s.resetHeld = false → (s.record i).state = .waiting o b m tag (some d) h → s.reached d = true →
    exec (.lockWaitDeadlineExpiry i) s = .next (grantScan { s with
      records := s.records.set i (freed (s.record i))
      waitList := s.waitList.filter (· ≠ i)
      watchList := s.watchList.filter (· ≠ i)
      sessions := s.sessions.set o { s.session o with
        tags := (s.session o).tags.filter (·.tag ≠ tag), owned := (s.session o).owned - 1 }
      links := s.links.set o { s.link o with
        outbound := (s.link o).outbound ++ [{ tag := tag, msg := .timedOutRecord (s.handle i), adopts := false }]
        reserved := (s.link o).reserved - 1 - h.isSome.toNat } })

/-- The expiry of a conversion's wait returns the record to HELD SHARED with its token and hold deadline, queues TIMED_OUT,
closes the tag and runs the grant scan (R66). -/
def Obligations.ConvertWaitExpiryFallsBack : Prop :=
  ∀ (i : RecNo) (o : LinkNo) (b : Block) (token : Word) (tag : Byte) (d : Instant) (h : Option Hold) (s : State),
    s.resetHeld = false → (s.record i).state = .converting o b token tag (some d) h → s.reached d = true →
    exec (.convertWaitDeadlineExpiry i) s = .next (grantScan { s with
      records := s.records.set i { reuse := (s.record i).reuse, state := .held o b .shared token h }
      sessions := s.sessions.set o { s.session o with tags := (s.session o).tags.filter (·.tag ≠ tag) }
      links := s.links.set o { s.link o with
        outbound := (s.link o).outbound ++ [{ tag := tag, msg := .timedOutRecord (s.handle i), adopts := false }]
        reserved := (s.link o).reserved - 1 } })

/-- The expiry of a watch queues TIMED_OUT, closes the tag, frees the record and runs the grant scan, which changes nothing in
a state that R50 describes (R83). -/
def Obligations.WatchWaitExpiryFreesRecord : Prop :=
  ∀ (i : RecNo) (o : LinkNo) (b : Block) (tag : Byte) (d : Instant) (s : State),
    s.resetHeld = false → (s.record i).state = .watching o b tag (some d) → s.reached d = true →
    ∃ u, u = { s with
      records := s.records.set i (freed (s.record i))
      waitList := s.waitList.filter (· ≠ i)
      watchList := s.watchList.filter (· ≠ i)
      sessions := s.sessions.set o { s.session o with
        tags := (s.session o).tags.filter (·.tag ≠ tag), owned := (s.session o).owned - 1 }
      links := s.links.set o { s.link o with
        outbound := (s.link o).outbound ++ [{ tag := tag, msg := .timedOutRecord (s.handle i), adopts := false }]
        reserved := (s.link o).reserved - 1 } } ∧
    exec (.watchWaitDeadlineExpiry i) s = .next (grantScan u) ∧ (ScanSettled s → grantScan u = u)

/-- The expiry of a hold deadline revokes the holding: the record is freed, REVOKED with tag 0 fills the hold reservation and
the grant scan runs (R70); a pending conversion is concluded with CANCELLED first (R71). -/
def Obligations.HoldExpiryRevokes : Prop :=
  ∀ (i : RecNo) (o : LinkNo) (b : Block) (token : Word) (limit : Nat) (d : Instant) (s : State),
    s.resetHeld = false → s.reached d = true →
    (∀ m, (s.record i).state = .held o b m token (some { limit := limit, due := d }) →
      exec (.holdDeadlineExpiry i) s = .next (grantScan { s with
        records := s.records.set i (freed (s.record i))
        waitList := s.waitList.filter (· ≠ i)
        watchList := s.watchList.filter (· ≠ i)
        sessions := s.sessions.set o { s.session o with owned := (s.session o).owned - 1 }
        links := s.links.set o { s.link o with
          outbound := (s.link o).outbound ++ [{ tag := 0, msg := .revoked (s.handle i) token, adopts := false }]
          reserved := (s.link o).reserved - 1 } })) ∧
    (∀ tag w, (s.record i).state = .converting o b token tag w (some { limit := limit, due := d }) →
      exec (.holdDeadlineExpiry i) s = .next (grantScan { s with
        records := s.records.set i (freed (s.record i))
        waitList := s.waitList.filter (· ≠ i)
        watchList := s.watchList.filter (· ≠ i)
        sessions := s.sessions.set o { s.session o with
          tags := (s.session o).tags.filter (·.tag ≠ tag), owned := (s.session o).owned - 1 }
        links := s.links.set o { s.link o with
          outbound := (s.link o).outbound ++
            [{ tag := tag, msg := .cancelledRecord (s.handle i), adopts := false },
             { tag := 0, msg := .revoked (s.handle i) token, adopts := false }]
          reserved := (s.link o).reserved - 1 - 1 } }))

/-- The expiry of an arrival tells TIMED_OUT to its own entry and BROKEN (TIMEOUT) to every other, empties the list and
advances the generation (R98). The entries of a list are of distinct links (R90). -/
def Obligations.ArrivalExpiryBreaksRound : Prop :=
  ∀ (g : GroupNo) (l : LinkNo) (tag : Byte) (d : Instant) (s : State), s.resetHeld = false →
    { link := l, tag := tag, due := some d } ∈ (s.group g).arrivals → ((s.group g).arrivals.map (·.link)).Nodup →
    s.reached d = true →
    ∃ u, exec (.arrivalDeadlineExpiry g l) s = .next u ∧ SameControl s u ∧
      u.group g = { generation := (s.group g).generation + 1, arrivals := [] } ∧ (∀ h, h ≠ g → u.group h = s.group h) ∧
      (∀ a ∈ (s.group g).arrivals, ∀ m : Message,
        m = (if a.link = l then .timedOutArrival g (s.group g).generation
             else .broken g (s.group g).generation .timeout) →
        u.link a.link = { s.link a.link with
          outbound := (s.link a.link).outbound ++ [{ tag := a.tag, msg := m, adopts := false }]
          reserved := (s.link a.link).reserved - 1 } ∧
        u.session a.link = { s.session a.link with tags := (s.session a.link).tags.filter (·.tag ≠ a.tag) }) ∧
      (∀ m, (∀ a ∈ (s.group g).arrivals, a.link ≠ m) → u.link m = s.link m ∧ u.session m = s.session m) ∧
      u.records = s.records ∧ u.waitList = s.waitList ∧ u.watchList = s.watchList ∧ u.tokens = s.tokens

/-! ### Receiver -/

/-- A start edge stops the gap timer; the timer running out counts GAP and returns the receiver to HUNT (R137). That
GAP_TIMER_EXPIRY stands for the rest of the gap limit is the model's choice: log entry 3. After a stop-bit fault that left the
line low, a start edge, or GAP_TIMER_EXPIRY, tells that the low was no break; a limit that had run by then has run out. That
these commands tell it is the model's choice: log entry 14. -/
def Obligations.GapTimerAndStartEdge : Prop :=
  ∀ (l : LinkNo) (s : State), s.resetHeld = false → (s.settings l).enabled = true →
    ((s.link l).inCharacter = false →
      (∀ k, (s.link l).gapTimer = .lineLow k → k < (s.link l).gap * (10 * bitPeriods (s.link l).baud)) →
      exec (.startEdge l) s =
        .next { s with links := s.links.set l { s.link l with inCharacter := true, gapTimer := .stopped } }) ∧
    (∀ k, (s.link l).inCharacter = false → (s.link l).gapTimer = .lineLow k →
      (s.link l).gap * (10 * bitPeriods (s.link l).baud) ≤ k →
      exec (.startEdge l) s = .next { s with links := s.links.set l { s.link l with
        inCharacter := true, receiver := .hunt, gapTimer := .stopped
        counters := { (s.link l).counters with gap := raised (s.link l).counters.gap } } }) ∧
    ((s.link l).gapTimer ≠ .stopped → exec (.gapTimerExpiry l) s =
      .next { s with links := s.links.set l { s.link l with
        receiver := .hunt, gapTimer := .stopped
        counters := { (s.link l).counters with gap := raised (s.link l).counters.gap } } })

/-- The moves of Figure 9-2 that neither count a fault nor complete a frame (R136). That a character may end with no START_EDGE
before it is log entry 4. -/
def Obligations.CharactersMoveReceiver : Prop :=
  ∀ (l : LinkNo) (v : Byte) (s : State) (r r' : Receiver), s.resetHeld = false → (s.settings l).enabled = true →
    (s.link l).receiver = r →
    (r = .hunt ∧ v = 0xA5 ∧ r' = .length ∨
     r = .hunt ∧ v ≠ 0xA5 ∧ r' = .hunt ∨
     r = .length ∧ 2 ≤ v.toNat ∧ v.toNat ≤ 58 ∧ r' = .body v [] false ∨
     (∃ n bytes p, r = .body n bytes p ∧ bytes.length + 1 < n.toNat ∧ r' = .body n (bytes ++ [v]) p) ∨
     (∃ n bytes p, r = .body n bytes p ∧ bytes.length + 1 = n.toNat ∧ r' = .check n (bytes ++ [v]) none p) ∨
     (∃ n bytes p, r = .check n bytes none p ∧ r' = .check n bytes (some v) p)) →
    exec (.characterReceivedWhole l v) s =
      .next { s with links := s.links.set l { s.link l with
        receiver := r', inCharacter := false, gapTimer := if r' = .hunt then .stopped else .running 0 } }

/-- A length byte outside 2 to 58 counts LENGTH and returns the receiver to HUNT (Figure 9-2). That LENGTH_FAULT and the
character are two names of this event is log entry 4. -/
def Obligations.LengthFaultAbandonsFrame : Prop :=
  ∀ (l : LinkNo) (v : Byte) (s : State), s.resetHeld = false → (s.settings l).enabled = true →
    (s.link l).receiver = .length → (v.toNat < 2 ∨ 58 < v.toNat) →
    exec (.lengthFault l v) s = .next { s with links := s.links.set l { s.link l with
        receiver := .hunt, inCharacter := false, gapTimer := .stopped
        counters := { (s.link l).counters with length := raised (s.link l).counters.length } } } ∧
    exec (.characterReceivedWhole l v) s = exec (.lengthFault l v) s

/-- A stop-bit fault counts FRAMING in every receiver state; in HUNT the character is ignored, elsewhere the receiver moves as
for a whole character with the frame poisoned, and a poisoned frame is discarded at its second check byte. A value other than 0
is judged at the stop bit, with the line still low (R138). That the character may end with no START_EDGE before it is log entry
4; how the gap timer holds a line that stays low is log entry 14. -/
def Obligations.StopBitFaultPoisonsFrame : Prop :=
  ∀ (l : LinkNo) (v : Byte) (s : State) (r r' : Receiver) (lengthFault : Bool), s.resetHeld = false →
    (s.settings l).enabled = true → (s.link l).receiver = r →
    (r = .hunt ∧ r' = .hunt ∧ lengthFault = false ∨
     r = .length ∧ 2 ≤ v.toNat ∧ v.toNat ≤ 58 ∧ r' = .body v [] true ∧ lengthFault = false ∨
     r = .length ∧ (v.toNat < 2 ∨ 58 < v.toNat) ∧ r' = .hunt ∧ lengthFault = true ∨
     (∃ n bytes p, r = .body n bytes p ∧ bytes.length + 1 < n.toNat ∧ r' = .body n (bytes ++ [v]) true) ∧
       lengthFault = false ∨
     (∃ n bytes p, r = .body n bytes p ∧ bytes.length + 1 = n.toNat ∧ r' = .check n (bytes ++ [v]) none true) ∧
       lengthFault = false ∨
     (∃ n bytes p, r = .check n bytes none p ∧ r' = .check n bytes (some v) true) ∧ lengthFault = false ∨
     (∃ n bytes c p, r = .check n bytes (some c) p ∧ r' = .hunt) ∧ lengthFault = false) →
    exec (.stopBitFault l v) s =
      .next { s with links := s.links.set l { s.link l with
        receiver := r', inCharacter := false
        gapTimer := if r' = .hunt then .stopped else if v = 0 then .running 0 else .lineLow 0
        counters := { (s.link l).counters with
          framing := raised (s.link l).counters.framing
          length := if lengthFault then raised (s.link l).counters.length else (s.link l).counters.length } } }

/-- The second check byte completes the frame: a good check renews the lease of an OPEN session and appends the frame, or
counts DISCARD when three stand in the queue; a bad check counts CHECK; a poisoned frame is dropped uncounted
(R140, R113, R138). That FRAME_RECEIVED and the character are two names of this event is log entry 4. -/
def Obligations.FrameCompletionAtSecondCheckByte : Prop :=
  ∀ (l : LinkNo) (v n kind tag c : Byte) (body : List Byte) (p : Bool) (s t : State), s.resetHeld = false →
    (s.settings l).enabled = true → (s.link l).receiver = .check n (kind :: tag :: body) (some c) p →
    t = { s with links := s.links.set l { s.link l with
      receiver := .hunt, inCharacter := false, gapTimer := .stopped } } →
    exec (.characterReceivedWhole l v) s = exec (.frameReceived l v) s ∧
    (p = true → exec (.frameReceived l v) s = .next t) ∧
    (p = false → c ++ v ≠ checkOf (n :: kind :: tag :: body) → exec (.frameReceived l v) s =
      .next { t with links := t.links.set l { t.link l with
        counters := { (t.link l).counters with check := raised (t.link l).counters.check } } }) ∧
    (p = false → c ++ v = checkOf (n :: kind :: tag :: body) → (s.link l).intake.length < 3 →
      exec (.frameReceived l v) s = .next { leaseRenewed l t with links := t.links.set l { t.link l with
        intake := (t.link l).intake ++ [{ kind := kind, tag := tag, body := body }] } }) ∧
    (p = false → c ++ v = checkOf (n :: kind :: tag :: body) → 3 ≤ (s.link l).intake.length →
      exec (.frameReceived l v) s = .next { leaseRenewed l t with links := t.links.set l { t.link l with
        counters := { (t.link l).counters with discard := raised (t.link l).counters.discard } } })

/-- Receiving, character by character, the frame that R144 has a sender send appends exactly that frame to the intake queue:
no bit of kind, tag or body is lost, and the check the part computes is the check it accepts (R136, R139, R140). That each
character comes with no START_EDGE before it is log entry 4. -/
def Obligations.ReceivingASentFrameAdmitsIt : Prop :=
  ∀ (l : LinkNo) (kind tag : Byte) (body : List Byte) (s : State), s.resetHeld = false →
    (s.settings l).enabled = true → (s.link l).receiver = .hunt → body.length ≤ 56 → (s.link l).intake.length < 3 →
    receiveAll l (frameChars kind tag body) s =
      .next { leaseRenewed l s with links := s.links.set l { s.link l with
        inCharacter := false, gapTimer := .stopped
        intake := (s.link l).intake ++ [{ kind := kind, tag := tag, body := body }] } }

/-! ### Break and transmitter -/

/-- The end of a break clears the link unit; an OPEN session ends as a failure, without notice, and any other is CLOSED
(R143, R117). Of a frame in transmission the character at the transmitter's place is completed; that the place moves with
the idle steps alone is log entry 6. -/
def Obligations.BreakEndClearsLink : Prop :=
  ∀ (l : LinkNo) (s : State), s.resetHeld = false → (s.settings l).enabled = true →
    ∃ u, exec (.breakEnd l) s = .next u ∧
      (u.link l).receiver = .hunt ∧ (u.link l).gapTimer = .stopped ∧ (u.link l).intake = [] ∧ (u.link l).outbound = [] ∧
      (u.link l).reserved = 0 ∧ (u.link l).counters = (s.link l).counters ∧
      (∀ b cs place c, (s.link l).transmitter = .sending b cs place → cs[place / (10 * bitPeriods b)]? = some c →
        (u.link l).transmitter = .finishing b c (place % (10 * bitPeriods b))) ∧
      ((∀ b cs place, (s.link l).transmitter ≠ .sending b cs place) →
        (u.link l).transmitter = (s.link l).transmitter) ∧
      (u.session l).state = .closed ∧
      ((s.link l).outbound.any (·.adopts) = false →
        (u.link l).baud = (s.link l).baud ∧ (u.link l).gap = (s.link l).gap) ∧
      ((s.link l).outbound.any (·.adopts) = true →
        (u.link l).baud = (s.settings l).baud ∧ (u.link l).gap = (s.settings l).gap) ∧
      ((s.session l).isOpen = true → FailureEnded l s u) ∧
      ((s.session l).isOpen = false → SameControl s u ∧ u.tokens = s.tokens ∧ u.records = s.records ∧
        u.waitList = s.waitList ∧ u.watchList = s.watchList ∧ u.groups = s.groups ∧
        u.session l = { s.session l with state := .closed } ∧
        (∀ m, m ≠ l → u.link m = s.link m ∧ u.session m = s.session m))

/-- A transmitter that sends no frame takes the head entry and sends mark, length, kind, tag, body and check at the adopted
code; the entry leaves the queue when the last stop bit has been sent. The DONE of a SET_LINK for the management link then
has the unit adopt the profile's baud code and gap limit (R144, R147). The transmit line rests high, and each character is a
low start bit, its data bits least significant first and a high stop bit, one bit time each (R134), and so is a character that
a break has left to be completed (R143). That ENTRY_TRANSMITTED stands for the rest of its frame, and FRAME_TRANSMIT_START for
the end of a character left by a break, is log entry 3; that an adoption leaves a character in reception going on is log entry
13. -/
def Obligations.TransmitterSendsHeadEntry : Prop :=
  (∀ (l : LinkNo) (e : OutEntry) (rest : List OutEntry) (covered : List Byte) (s : State), s.resetHeld = false →
    (s.link l).outbound = e :: rest →
    covered = [BitVec.ofNat 8 (2 + e.msg.body.length), e.msg.kind, e.tag] ++ e.msg.body →
    ((s.settings l).enabled = true → (∀ b cs place, (s.link l).transmitter ≠ .sending b cs place) →
      exec (.frameTransmitStart l) s = .next { s with links := s.links.set l { s.link l with
        transmitter := .sending (s.link l).baud ([0xA5] ++ covered ++
          [(checkOf covered).extractLsb' 8 8, (checkOf covered).extractLsb' 0 8]) 0 } }) ∧
    (∀ b cs place, (s.link l).transmitter = .sending b cs place →
      (e.adopts = false ∨ ((s.link l).baud = (s.settings l).baud ∧ (s.link l).gap = (s.settings l).gap) →
        exec (.entryTransmitted l) s =
          .next { s with links := s.links.set l { s.link l with outbound := rest, transmitter := .idle } }) ∧
      (e.adopts = true → ((s.link l).baud ≠ (s.settings l).baud ∨ (s.link l).gap ≠ (s.settings l).gap) →
        exec (.entryTransmitted l) s =
          .next { s with links := s.links.set l { s.link l with
            outbound := rest, transmitter := .idle, receiver := .hunt, gapTimer := .stopped
            baud := (s.settings l).baud, gap := (s.settings l).gap } }))) ∧
  (∀ (l : LinkNo) (s : State), (s.resetHeld = true ∨ (s.link l).transmitter = .idle → s.txd l = true) ∧
    (∀ (baud : Nat) (chars : List Byte) (c : Byte) (k bit period : Nat), s.resetHeld = false →
      chars[k]? = some c → bit < 10 → period < bitPeriods baud →
      (s.link l).transmitter = .sending baud chars ((k * 10 + bit) * bitPeriods baud + period) ∨
        (s.link l).transmitter = .finishing baud c (bit * bitPeriods baud + period) →
      s.txd l = if bit = 0 then false else if bit = 9 then true else c.getLsbD (bit - 1)))

/-! ### Dispatcher -/

/-- The dispatcher's choice: the current link while its head is eligible and its weight is not used up, else the first
eligible link after it in rotation, itself last (R152); a head is eligible on an enabled link with three free entries for a
reserving kind and one for any other (R151). -/
def Obligations.DispatcherChoosesByRotation : Prop :=
  (∀ (s : State) (l : LinkNo), s.eligible l = true ↔ (s.settings l).enabled = true ∧ ∃ f rest,
      (s.link l).intake = f :: rest ∧
      (s.link l).outbound.length + (s.link l).reserved +
        (if f.kind ∈ ([0x01, 0x10, 0x12, 0x14, 0x20] : List Byte) then 3 else 1) ≤ 40) ∧
  (∀ (s : State) (turn : Rotation), s.nextTurn = some turn ↔
      (s.eligible s.rotation.current = true ∧ s.rotation.taken < (s.settings s.rotation.current).weight ∧
        turn = { current := s.rotation.current, taken := s.rotation.taken + 1 }) ∨
      (¬ (s.eligible s.rotation.current = true ∧ s.rotation.taken < (s.settings s.rotation.current).weight) ∧
        turn.taken = 1 ∧ s.eligible turn.current = true ∧ ∃ k : Nat, 1 ≤ k ∧ k ≤ 6 ∧
        turn.current.val = (s.rotation.current.val + k) % 6 ∧
        ∀ m : LinkNo, ∀ j : Nat, 1 ≤ j → j < k → m.val = (s.rotation.current.val + j) % 6 → s.eligible m = false))

/-- A frame whose kind byte names no request is answered REFUSED UNKNOWN_KIND with detail 0, and nothing else comes of it but
its leaving the queue (R153, R154). -/
def Obligations.UnknownKindIsRefused : Prop :=
  ∀ (l : LinkNo) (kind tag : Byte) (body : List Byte) (s t : State),
    TakesFrame l { kind := kind, tag := tag, body := body } s t → kind ∉ requestKindCodes →
    exec (.unknownKindFrame l kind tag body) s = .next (withReply l tag (.refused .unknownKind 0) t)

/-- A request that fails a common check is answered REFUSED with the reason of the first check it fails, its own tag and
detail 0, and has no other effect (R153, R154). -/
def Obligations.CommonCheckRefusesOnly : Prop :=
  ∀ (c : Instr) (k : ReqKind) (l : LinkNo) (tag : Byte) (body : List Byte) (r : Reason) (s t : State),
    requestOf c = some (k, l, tag, body) → TakesFrame l { kind := k.code, tag := tag, body := body } s t →
    ChecksFail k l tag body s r → exec c s = .next (withReply l tag (.refused r 0) t)

/-- A request that the dispatcher takes is answered by a reply with its tag, last of all that its event queues on its link
(R155). -/
def Obligations.ReplyIsQueuedLast : Prop :=
  ∀ (c : Instr) (k : ReqKind) (l : LinkNo) (tag : Byte) (body : List Byte) (s t : State),
    requestOf c = some (k, l, tag, body) → TakesFrame l { kind := k.code, tag := tag, body := body } s t →
    ∃ u before m adopts, exec c s = .next u ∧
      (u.link l).outbound = before ++ [{ tag := tag, msg := m, adopts := adopts }] ∧
      (m.kind = 0x81 ∨ m.kind = 0x82 ∨ m.kind = 0x83)

/-- A request that passes the common checks and that its owner's own checks refuse is answered REFUSED with the reason and
detail of the first check it fails, and nothing else comes of it (R9, R10, R22, R29, R31, R56, R59, R92, R122, R162 to
R164, R167 to R169). -/
def Obligations.OwnerRefusesOnly : Prop :=
  ∀ (c : Instr) (k : ReqKind) (l : LinkNo) (tag : Byte) (body : List Byte) (r : Reason) (d : Byte) (s t : State),
    requestOf c = some (k, l, tag, body) → Serves k l tag body s t → OwnerRefuses l body s k r d →
    exec c s = .next (withReply l tag (.refused r d) t)

/-- A request answered REFUSED, by a common check or by its owner, changes nothing but its link's queues (R9, R29, R56, R59,
R92, R122). -/
def Obligations.RefusedRequestOnlyReplies : Prop :=
  ∀ (c : Instr) (k : ReqKind) (l : LinkNo) (tag : Byte) (body : List Byte) (s t u : State) (before : List OutEntry)
    (r : Reason) (d : Byte) (adopts : Bool),
    requestOf c = some (k, l, tag, body) → TakesFrame l { kind := k.code, tag := tag, body := body } s t →
    exec c s = .next u →
    (u.link l).outbound = before ++ [{ tag := tag, msg := .refused r d, adopts := adopts }] →
    u = withReply l tag (.refused r d) t

/-! ### Session requests -/

/-- OPEN on a CLOSED session opens it, records the epoch, arms the lease, takes the session reservation and answers DONE
(R109); on any other session it is refused. CLOSE of a LAPSED session closes it and answers DONE; of a CLOSED one it is
refused NO_SESSION (R110). -/
def Obligations.OpenAndCloseAnswer : Prop :=
  (∀ (l : LinkNo) (tag : Byte) (body : List Byte) (s t : State), Serves .openSession l tag body s t →
    ((s.session l).state = .closed → exec (.openSession l tag body) s = .next { t with
      sessions := t.sessions.set l { s.session l with
        state := .opened { ms := s.uptime + BitVec.ofNat 32 (s.settings l).lease, sub := s.clkin } s.epoch }
      links := t.links.set l { t.link l with
        reserved := (s.link l).reserved + 1
        outbound := (s.link l).outbound ++
          [{ tag := tag, adopts := false, msg := .doneOpen s.epoch s.tokens (s.settings l).lease (s.settings l).quota }] } }) ∧
    ((s.session l).isOpen = true →
      exec (.openSession l tag body) s = .next (withReply l tag (.refused .sessionOpen 0) t)) ∧
    ((s.session l).state = .lapsed →
      exec (.openSession l tag body) s = .next (withReply l tag (.refused .lapsed 0) t))) ∧
  (∀ (l : LinkNo) (tag : Byte) (body : List Byte) (s t : State), Serves .closeSession l tag body s t →
    ((s.session l).state = .lapsed → exec (.closeSession l tag body) s = .next (withReply l tag .doneEmpty
      { t with sessions := t.sessions.set l { s.session l with state := .closed } })) ∧
    ((s.session l).state = .closed →
      exec (.closeSession l tag body) s = .next (withReply l tag (.refused .noSession 0) t)))

/-- CLOSE of an OPEN session cancels its open tags in order, ends the session, re-tests its groups in mode ALL, telling PASSED
to the entries of each round that completes, frees its holdings with one scan, and answers DONE last (R111, R105, R76). -/
def Obligations.CloseRunsCloseSequence : Prop :=
  ∀ (l : LinkNo) (tag : Byte) (body : List Byte) (s t : State), Serves .closeSession l tag body s t →
    (s.session l).isOpen = true → SessionsSound s →
    ∃ u, exec (.closeSession l tag body) s = .next u ∧ SameControl t u ∧ s.tokens ≤ u.tokens ∧
      (u.session l).state = .closed ∧ (u.session l).tags = [] ∧ (u.link l).reserved = 0 ∧
      (u.link l).outbound = (s.link l).outbound ++
        (s.session l).tags.map (fun x => { tag := x.tag, adopts := false, msg :=
          match x.ref with
          | .lockWait i | .convert i | .watch i => .cancelledRecord (s.handle i)
          | .arrival g => .cancelledArrival g (s.group g).generation }) ++
        [{ tag := tag, msg := .doneEmpty, adopts := false }] ∧
      (∀ i, (s.record i).state.owner = some l → u.record i = freed (s.record i)) ∧
      (∀ i, (s.record i).state.owner ≠ some l → StaysOr (ScanMove s u) (s.record i) (u.record i)) ∧
      (∀ g, (CompletesAtClose s l g → u.group g = { generation := (s.group g).generation + 1, arrivals := [] }) ∧
        (¬ CompletesAtClose s l g →
          u.group g = { generation := (s.group g).generation, arrivals := remaining s l g })) ∧
      (∀ m, m ≠ l → ∃ scan, ScanNotices s u m scan ∧ QueuedFor s u m (passedNotices s l m ++ scan))

/-- RENEW answers the lease period and changes nothing (R112); STATUS answers the link's or the part's values and clears the
link's counters with selector 0 alone (R169). -/
def Obligations.RenewAndStatusAnswer : Prop :=
  (∀ (l : LinkNo) (tag : Byte) (body : List Byte) (s t : State), Serves .renew l tag body s t →
    exec (.renew l tag body) s = .next (withReply l tag (.doneRenew (s.settings l).lease) t)) ∧
  (∀ (l : LinkNo) (tag : Byte) (s t : State), Serves .status l tag [0] s t →
    exec (.status l tag [0]) s = .next { t with links := t.links.set l { t.link l with
      counters := { framing := 0, length := 0, check := 0, gap := 0, discard := 0 }
      outbound := (s.link l).outbound ++
        [{ tag := tag, adopts := false
           msg := .doneStatusLink (s.session l).state.code (s.session l).tags.length (s.session l).owned
             (40 - (s.link l).outbound.length - (s.link l).reserved) (s.link l).counters }] } }) ∧
  (∀ (l : LinkNo) (tag : Byte) (s t : State), Serves .status l tag [1] s t →
    exec (.status l tag [1]) s = .next (withReply l tag (.doneStatusPart s.service s.epoch s.tokens
      (Nat.card { i : RecNo // (s.record i).state ≠ .free })
      (Nat.card { i : RecNo // (s.record i).state.isWaiting = true })
      (Nat.card { i : RecNo // (s.record i).state.isWatching = true }) s.uptime) t))

/-- CANCEL of an open tag: a lock wait is freed, a conversion falls back to HELD SHARED, a watch is freed, each with CANCELLED
before the scan; an arrival is withdrawn without a scan. DONE follows (R53, R67, R84, R101, R122). -/
def Obligations.CancelConcludesOpenTag : Prop :=
  ∀ (l : LinkNo) (tag target : Byte) (s t : State), Serves .cancel l tag [target] s t →
    (∀ i b m w h, (s.session l).lookup target = some { tag := target, ref := .lockWait i } →
      (s.record i).state = .waiting l b m target w h →
      exec (.cancel l tag [target]) s = .next (withReply l tag (.doneCancel target) (grantScan { t with
        records := s.records.set i (freed (s.record i))
        waitList := s.waitList.filter (· ≠ i)
        watchList := s.watchList.filter (· ≠ i)
        sessions := s.sessions.set l { s.session l with
          tags := (s.session l).tags.filter (·.tag ≠ target), owned := (s.session l).owned - 1 }
        links := t.links.set l { t.link l with
          outbound := (s.link l).outbound ++ [{ tag := target, msg := .cancelledRecord (s.handle i), adopts := false }]
          reserved := (s.link l).reserved - 1 - h.isSome.toNat } }))) ∧
    (∀ i b token w h, (s.session l).lookup target = some { tag := target, ref := .convert i } →
      (s.record i).state = .converting l b token target w h →
      exec (.cancel l tag [target]) s = .next (withReply l tag (.doneCancel target) (grantScan { t with
        records := s.records.set i { reuse := (s.record i).reuse, state := .held l b .shared token h }
        sessions := s.sessions.set l { s.session l with tags := (s.session l).tags.filter (·.tag ≠ target) }
        links := t.links.set l { t.link l with
          outbound := (s.link l).outbound ++ [{ tag := target, msg := .cancelledRecord (s.handle i), adopts := false }]
          reserved := (s.link l).reserved - 1 } }))) ∧
    (∀ i b w, (s.session l).lookup target = some { tag := target, ref := .watch i } →
      (s.record i).state = .watching l b target w →
      exec (.cancel l tag [target]) s = .next (withReply l tag (.doneCancel target) (grantScan { t with
        records := s.records.set i (freed (s.record i))
        waitList := s.waitList.filter (· ≠ i)
        watchList := s.watchList.filter (· ≠ i)
        sessions := s.sessions.set l { s.session l with
          tags := (s.session l).tags.filter (·.tag ≠ target), owned := (s.session l).owned - 1 }
        links := t.links.set l { t.link l with
          outbound := (s.link l).outbound ++ [{ tag := target, msg := .cancelledRecord (s.handle i), adopts := false }]
          reserved := (s.link l).reserved - 1 } }))) ∧
    (∀ g, (s.session l).lookup target = some { tag := target, ref := .arrival g } →
      exec (.cancel l tag [target]) s = .next { t with
        groups := s.groups.set g { s.group g with arrivals := (s.group g).arrivals.filter (·.link ≠ l) }
        sessions := s.sessions.set l { s.session l with tags := (s.session l).tags.filter (·.tag ≠ target) }
        links := t.links.set l { t.link l with
          outbound := (s.link l).outbound ++
            [{ tag := target, msg := .cancelledArrival g (s.group g).generation, adopts := false },
             { tag := tag, msg := .doneCancel target, adopts := false }]
          reserved := (s.link l).reserved - 1 } })

/-! ### The grant scan -/

/-- What the grant scan decides and leaves: it grants, in increasing record number, the converters that no other holding
overlaps, then, oldest first, the waiters that conflict with no holding and no earlier waiter, while tokens are left, and
fires the watches that no holding overlaps any more. Each grant takes the next token; GRANTED or FIRED fills the tag's
reservation and closes the tag, in the order of the decisions; nothing else changes (R42 to R49, R82, R30). -/
def Obligations.GrantScanDecides : Prop :=
  ∀ s : State, ListsMatch s → ∃ granted fired, ScanOutcome s (grantScan s) granted fired

/-! ### Lock requests -/

/-- An admitted ACQUIRE that conflicts with nothing is granted at once in the lowest FREE record with the next token (R36). -/
def Obligations.AcquireGrantsAtOnce : Prop :=
  ∀ (l : LinkNo) (tag : Byte) (body : List Byte) (q : AcquireReq) (m : Mode) (w : Window) (i : RecNo) (s t : State),
    Serves .acquire l tag body s t → q = AcquireReq.ofBody body → Mode.ofCode q.mode = some m → Admits s l q.block w →
    ¬ (m = .exclusive ∧ w.access = .sharedOnly) → (∀ j, ¬ ConflictsWith s j (w.translate q.block) m) →
    BelowQuota s l → LowestFree s i → s.tokens ≠ 0xFFFFFFFF →
    exec (.acquire l tag body) s = .next { t with
      tokens := s.tokens + 1
      records := s.records.set i { reuse := (s.record i).reuse
                                   state := .held l (w.translate q.block) m (s.tokens + 1) (holdFrom s q.hold) }
      sessions := s.sessions.set l { s.session l with owned := (s.session l).owned + 1 }
      links := t.links.set l { t.link l with
        outbound := (s.link l).outbound ++
          [{ tag := tag, msg := .doneHolding (s.handle i) (s.tokens + 1) m, adopts := false }]
        reserved := (s.link l).reserved + (if q.hold = 0 then 0 else 1) } }

/-- An admitted ACQUIRE that conflicts and may wait becomes WAITING at the tail of the wait list and opens its tag (R38). -/
def Obligations.AcquireEntersWaitList : Prop :=
  ∀ (l : LinkNo) (tag : Byte) (body : List Byte) (q : AcquireReq) (m : Mode) (w : Window) (i : RecNo) (s t : State),
    Serves .acquire l tag body s t → q = AcquireReq.ofBody body → Mode.ofCode q.mode = some m → Admits s l q.block w →
    ¬ (m = .exclusive ∧ w.access = .sharedOnly) → (∃ j, ConflictsWith s j (w.translate q.block) m) →
    q.wait ≠ 0 → BelowQuota s l → LowestFree s i → s.waitList.length < 64 →
    exec (.acquire l tag body) s = .next { t with
      records := s.records.set i { reuse := (s.record i).reuse
                                   state := .waiting l (w.translate q.block) m tag (waitFrom s q.wait)
                                     (if q.hold = 0 then none else some q.hold) }
      waitList := s.waitList ++ [i]
      sessions := s.sessions.set l { s.session l with
        owned := (s.session l).owned + 1, tags := (s.session l).tags ++ [{ tag := tag, ref := .lockWait i }] }
      links := t.links.set l { t.link l with
        outbound := (s.link l).outbound ++
          [{ tag := tag, msg := .waitingRecord (s.handle i) (s.waitList.length + 1), adopts := false }]
        reserved := (s.link l).reserved + 1 + (if q.hold = 0 then 0 else 1) } }

/-- An admitted ACQUIRE that conflicts and carries wait limit 0 is refused CONFLICT with detail 0, whatever room there is, and
nothing else happens (R37). -/
def Obligations.AcquireTryConflictIsRefused : Prop :=
  ∀ (l : LinkNo) (tag : Byte) (body : List Byte) (q : AcquireReq) (m : Mode) (w : Window) (s t : State),
    Serves .acquire l tag body s t → q = AcquireReq.ofBody body → Mode.ofCode q.mode = some m → Admits s l q.block w →
    ¬ (m = .exclusive ∧ w.access = .sharedOnly) → (∃ j, ConflictsWith s j (w.translate q.block) m) → q.wait = 0 →
    exec (.acquire l tag body) s = .next (withReply l tag (.refused .conflict 0) t)

/-- RELEASE of a HELD record frees it, returns its hold reservation, runs the grant scan and answers DONE with the released
token (R57); of a CONVERTING record it concludes the conversion with CANCELLED first (R58). -/
def Obligations.ReleaseFreesHolding : Prop :=
  ∀ (l : LinkNo) (tag : Byte) (body : List Byte) (handle : Nat) (i : RecNo) (b : Block) (token : Word)
    (h : Option Hold) (s t : State),
    Serves .release l tag body s t → handle = fieldAt body 0 2 → i.val = handle % 128 →
    (s.record i).reuse.toNat = handle / 128 →
    (∀ m, (s.record i).state = .held l b m token h →
      exec (.release l tag body) s = .next (withReply l tag (.doneRelease (s.handle i) token) (grantScan { t with
        records := s.records.set i (freed (s.record i))
        waitList := s.waitList.filter (· ≠ i)
        watchList := s.watchList.filter (· ≠ i)
        sessions := s.sessions.set l { s.session l with owned := (s.session l).owned - 1 }
        links := t.links.set l { t.link l with reserved := (s.link l).reserved - h.isSome.toNat } }))) ∧
    (∀ g w, (s.record i).state = .converting l b token g w h →
      exec (.release l tag body) s = .next (withReply l tag (.doneRelease (s.handle i) token) (grantScan { t with
        records := s.records.set i (freed (s.record i))
        waitList := s.waitList.filter (· ≠ i)
        watchList := s.watchList.filter (· ≠ i)
        sessions := s.sessions.set l { s.session l with
          tags := (s.session l).tags.filter (·.tag ≠ g), owned := (s.session l).owned - 1 }
        links := t.links.set l { t.link l with
          outbound := (s.link l).outbound ++ [{ tag := g, msg := .cancelledRecord (s.handle i), adopts := false }]
          reserved := (s.link l).reserved - 1 - h.isSome.toNat } })))

/-- CONVERT of a HELD record: to SHARED at once with a grant scan (R60); to EXCLUSIVE at once with the next token when no
other holding overlaps (R61), or into CONVERTING when others overlap, none of them converting, and the wait limit is not 0
(R64). -/
def Obligations.ConvertChangesMode : Prop :=
  ∀ (l : LinkNo) (tag : Byte) (body : List Byte) (q : ConvertReq) (i : RecNo) (b : Block) (token : Word)
    (h : Option Hold) (s t : State),
    Serves .convert l tag body s t → q = ConvertReq.ofBody body → i.val = q.handle % 128 →
    (s.record i).reuse.toNat = q.handle / 128 →
    ((s.record i).state = .held l b .exclusive token h → q.mode = 0 →
      exec (.convert l tag body) s = .next (withReply l tag (.doneHolding (s.handle i) token .shared) (grantScan { t with
        records := s.records.set i { reuse := (s.record i).reuse, state := .held l b .shared token h } }))) ∧
    ((s.record i).state = .held l b .shared token h → q.mode = 1 →
      ((∀ j, j ≠ i → ¬ HoldsOver s j b) → s.tokens ≠ 0xFFFFFFFF →
        exec (.convert l tag body) s = .next (withReply l tag (.doneHolding (s.handle i) (s.tokens + 1) .exclusive)
          { t with
            tokens := s.tokens + 1
            records := s.records.set i { reuse := (s.record i).reuse
                                         state := .held l b .exclusive (s.tokens + 1) h } })) ∧
      ((∃ j, j ≠ i ∧ HoldsOver s j b) →
        (∀ j, j ≠ i → HoldsOver s j b → (s.record j).state.isConverting = false) → q.wait ≠ 0 →
        exec (.convert l tag body) s = .next { t with
          records := s.records.set i { reuse := (s.record i).reuse
                                       state := .converting l b token tag (waitFrom s q.wait) h }
          sessions := s.sessions.set l { s.session l with
            tags := (s.session l).tags ++ [{ tag := tag, ref := .convert i }] }
          links := t.links.set l { t.link l with
            outbound := (s.link l).outbound ++ [{ tag := tag, msg := .waitingRecord (s.handle i) 0, adopts := false }]
            reserved := (s.link l).reserved + 1 } }))

/-- An upgrade that meets an overlapping holding is refused, with no other effect: DEADLOCK when one of them is CONVERTING,
whatever the wait limit (R62); CONFLICT when none is and the wait limit is 0 (R63); and one that meets none is refused
TOKENS_SPENT at the counter's maximum (R31). -/
def Obligations.ConvertUpgradeRefusals : Prop :=
  ∀ (l : LinkNo) (tag : Byte) (body : List Byte) (q : ConvertReq) (i : RecNo) (b : Block) (token : Word)
    (h : Option Hold) (s t : State),
    Serves .convert l tag body s t → q = ConvertReq.ofBody body → i.val = q.handle % 128 →
    (s.record i).reuse.toNat = q.handle / 128 → (s.record i).state = .held l b .shared token h → q.mode = 1 →
    ((∃ j, j ≠ i ∧ HoldsOver s j b ∧ (s.record j).state.isConverting = true) →
      exec (.convert l tag body) s = .next (withReply l tag (.refused .deadlock 0) t)) ∧
    ((∃ j, j ≠ i ∧ HoldsOver s j b) →
      (∀ j, j ≠ i → HoldsOver s j b → (s.record j).state.isConverting = false) → q.wait = 0 →
      exec (.convert l tag body) s = .next (withReply l tag (.refused .conflict 0) t)) ∧
    ((∀ j, j ≠ i → ¬ HoldsOver s j b) → s.tokens = 0xFFFFFFFF →
      exec (.convert l tag body) s = .next (withReply l tag (.refused .tokensSpent 0) t))

/-- An admitted WATCH is answered free now when no holding overlaps its block (R79), refused CONFLICT when one does and the
wait limit is 0 (R80), and otherwise, with room, takes a record at the tail of the watch list and opens its tag (R81). -/
def Obligations.WatchAnswersOrWaits : Prop :=
  ∀ (l : LinkNo) (tag : Byte) (body : List Byte) (q : WatchReq) (w : Window) (s t : State),
    Serves .watch l tag body s t → q = WatchReq.ofBody body → Admits s l q.block w →
    ((∀ j, ¬ HoldsOver s j (w.translate q.block)) →
      exec (.watch l tag body) s = .next (withReply l tag .doneEmpty t)) ∧
    ((∃ j, HoldsOver s j (w.translate q.block)) → q.wait = 0 →
      exec (.watch l tag body) s = .next (withReply l tag (.refused .conflict 0) t)) ∧
    (∀ i, (∃ j, HoldsOver s j (w.translate q.block)) → q.wait ≠ 0 → BelowQuota s l → LowestFree s i →
      s.watchList.length < 16 →
      exec (.watch l tag body) s = .next { t with
        records := s.records.set i { reuse := (s.record i).reuse
                                     state := .watching l (w.translate q.block) tag (waitFrom s q.wait) }
        watchList := s.watchList ++ [i]
        sessions := s.sessions.set l { s.session l with
          owned := (s.session l).owned + 1, tags := (s.session l).tags ++ [{ tag := tag, ref := .watch i }] }
        links := t.links.set l { t.link l with
          outbound := (s.link l).outbound ++
            [{ tag := tag, msg := .waitingRecord (s.handle i) (s.watchList.length + 1), adopts := false }]
          reserved := (s.link l).reserved + 1 } })

/-- An admitted QUERY answers the four values of R88 over the whole pool and changes nothing (R87, R88). -/
def Obligations.QueryAnswersFourValues : Prop :=
  ∀ (l : LinkNo) (tag : Byte) (body : List Byte) (w : Window) (b : Block) (s t : State),
    Serves .query l tag body s t → Admits s l (queryBlock body) w → b = w.translate (queryBlock body) →
    ∃ holdings exclusive waiters highest,
      exec (.query l tag body) s = .next (withReply l tag (.doneQuery holdings exclusive waiters highest) t) ∧
      holdings = Nat.card { i : RecNo // HoldsOver s i b } ∧
      (exclusive = true ↔ ∃ i c, (s.record i).state.holding = some (c, .exclusive) ∧ b.overlaps c = true) ∧
      waiters = Nat.card { i : RecNo // ∃ o c m g d h, (s.record i).state = .waiting o c m g d h ∧ b.overlaps c = true } ∧
      ((∀ i, ¬ HoldsOver s i b) → highest = 0) ∧
      (∀ i token, HoldsOver s i b → (s.record i).state.token = some token → token ≤ highest) ∧
      ((∃ i, HoldsOver s i b) → ∃ i, HoldsOver s i b ∧ (s.record i).state.token = some highest)

/-! ### Barriers -/

/-- ARRIVE of a member that has not arrived: when the round completes, PASSED with its rank goes to every earlier entry, the
list empties, the generation advances and DONE is answered (R94); otherwise it is refused NOT_READY with wait limit 0
(R95), or appended with its tag opened (R96). -/
def Obligations.ArriveCompletesOrWaits : Prop :=
  ∀ (l : LinkNo) (tag : Byte) (body : List Byte) (q : ArriveReq) (g : GroupNo) (s t : State),
    Serves .arrive l tag body s t → q = ArriveReq.ofBody body → q.group.toNat = g.val → (s.groupDef g).has l = true →
    (∀ a ∈ (s.group g).arrivals, a.link ≠ l) → ((s.group g).arrivals.map (·.link)).Nodup →
    ∀ complete : Prop, (complete ↔
      ((s.groupDef g).mode = .all ∧ ∀ m, m ≠ l → s.isLive g m = true → ∃ a ∈ (s.group g).arrivals, a.link = m) ∨
      ((s.groupDef g).mode = .quorum ∧ (s.group g).arrivals.length + 1 = (s.groupDef g).k)) →
    (complete → ∃ u, exec (.arrive l tag body) s = .next u ∧ SameControl t u ∧
      u.group g = { generation := (s.group g).generation + 1, arrivals := [] } ∧ (∀ h, h ≠ g → u.group h = s.group h) ∧
      (∀ (r : Nat) (lt : r < (s.group g).arrivals.length), ∀ a, a = (s.group g).arrivals[r] →
        u.link a.link = { s.link a.link with
          outbound := (s.link a.link).outbound ++
            [{ tag := a.tag, adopts := false
               msg := .passed g (s.group g).generation (r + 1) ((s.group g).arrivals.length + 1) }]
          reserved := (s.link a.link).reserved - 1 } ∧
        u.session a.link = { s.session a.link with tags := (s.session a.link).tags.filter (·.tag ≠ a.tag) }) ∧
      u.link l = { t.link l with
        outbound := (s.link l).outbound ++
          [{ tag := tag, adopts := false
             msg := .doneArrive g (s.group g).generation ((s.group g).arrivals.length + 1)
               ((s.group g).arrivals.length + 1) }] } ∧
      u.session l = s.session l ∧
      (∀ m, m ≠ l → (∀ a ∈ (s.group g).arrivals, a.link ≠ m) → u.link m = s.link m ∧ u.session m = s.session m) ∧
      u.records = s.records ∧ u.waitList = s.waitList ∧ u.watchList = s.watchList ∧ u.tokens = s.tokens) ∧
    (¬ complete → q.wait = 0 → exec (.arrive l tag body) s = .next (withReply l tag (.refused .notReady 0) t)) ∧
    (¬ complete → q.wait ≠ 0 → exec (.arrive l tag body) s = .next { t with
      groups := s.groups.set g { s.group g with
        arrivals := (s.group g).arrivals ++ [{ link := l, tag := tag, due := waitFrom s q.wait }] }
      sessions := s.sessions.set l { s.session l with
        tags := (s.session l).tags ++ [{ tag := tag, ref := .arrival g }] }
      links := t.links.set l { t.link l with
        outbound := (s.link l).outbound ++
          [{ tag := tag, adopts := false
             msg := .waitingArrive g (s.group g).generation ((s.group g).arrivals.length + 1) }]
        reserved := (s.link l).reserved + 1 } })

/-! ### Profile and service control -/

/-- An accepted SET_LINK writes the six settings; the link unit is cleared when the link is turned off, starts in HUNT when it
is turned on, and adopts a changed baud code or gap limit at once unless it is the management link's, whose DONE carries
the adoption (R162, R146, R147). What a link turned off keeps of its outbound queue, and that a link turned on discards the
entry of a frame still in transmission, is log entry 7; that a character in reception goes on at an adoption and not at a turning
on or off is log entry 13. -/
def Obligations.SetLinkWritesSettings : Prop :=
  ∀ (l : LinkNo) (tag : Byte) (body : List Byte) (q : SetLinkReq) (n : LinkNo) (old new : LinkSettings)
    (u v : LinkUnit) (s t : State),
    Serves .setLink l tag body s t → q = SetLinkReq.ofBody body → q.link.toNat = n.val →
    (q.enabled = 1 ∨ q.enabled = 0 ∧ n ≠ l) → q.baud ≤ 7 → 2 ≤ q.gap → q.gap ≤ 250 → 50 ≤ q.lease → q.lease ≤ 60000 →
    1 ≤ q.quota → q.quota ≤ 128 → 1 ≤ q.weight → q.weight ≤ 4 →
    old = s.settings n →
    new = { enabled := decide (q.enabled = 1), baud := q.baud, gap := q.gap, lease := q.lease, quota := q.quota,
            weight := q.weight } →
    u = (if old.enabled = true ∧ new.enabled = false then { t.link n with
            receiver := .hunt, inCharacter := false, gapTimer := .stopped, intake := [], outbound := survivors (t.link n) }
         else if old.enabled = false ∧ new.enabled = true then { t.link n with
            receiver := .hunt, inCharacter := false, gapTimer := .stopped
            transmitter := .idle, outbound := discarded (t.link n) }
         else t.link n) →
    v = (if n = l ∨ (new.baud = old.baud ∧ new.gap = old.gap) ∨ (u.baud = new.baud ∧ u.gap = new.gap) then u
         else { u with receiver := .hunt, gapTimer := .stopped, baud := new.baud, gap := new.gap }) →
    exec (.setLink l tag body) s = .next { t with
      profile := { s.profile with links := s.profile.links.set n new }
      links := (t.links.set n v).set l { (t.links.set n v).get l with
        outbound := ((t.links.set n v).get l).outbound ++
          [{ tag := tag, msg := .doneEmpty
             adopts := decide (n = l ∧ (new.baud ≠ old.baud ∨ new.gap ≠ old.gap)) }] } }

/-- An accepted SET_WINDOW writes one window (R163) and an accepted SET_GROUP one group definition (R164); nothing else
changes but the DONE. -/
def Obligations.SetWindowAndSetGroupWrite : Prop :=
  (∀ (l : LinkNo) (tag : Byte) (body : List Byte) (q : SetWindowReq) (n : LinkNo) (k : WindowNo) (a : Access)
      (s t : State),
    Serves .setWindow l tag body s t → q = SetWindowReq.ofBody body → q.link.toNat = n.val → q.index.toNat = k.val →
    q.exp ≤ 24 → q.localBase % 2 ^ q.exp = 0 → q.globalBase % 2 ^ q.exp = 0 → Access.ofCode q.access = some a →
    exec (.setWindow l tag body) s = .next (withReply l tag .doneEmpty { t with
      profile := { s.profile with windows := s.profile.windows.set n ((s.windows n).set k
        { localBase := q.localBase, exp := q.exp, globalBase := q.globalBase, access := a }) } })) ∧
  (∀ (l : LinkNo) (tag : Byte) (body : List Byte) (q : SetGroupReq) (g : GroupNo) (m : GroupMode) (set : BitVec 6)
      (s t : State),
    Serves .setGroup l tag body s t → q = SetGroupReq.ofBody body → q.group.toNat = g.val →
    q.members = set.setWidth 8 → GroupMode.ofCode q.mode = some m → 1 ≤ q.k → q.k ≤ 6 →
    (set ≠ 0 → q.k ≤ memberCount set) →
    exec (.setGroup l tag body) s = .next (withReply l tag .doneEmpty { t with
      profile := { s.profile with groups := s.profile.groups.set g { members := set, mode := m, k := q.k } } }))

/-- SET_FLOOR raises the token counter to the floor or leaves it, and answers its value (R32); START advances the epoch, enters
SERVICE and answers the epoch (R165). -/
def Obligations.SetFloorAndStart : Prop :=
  (∀ (l : LinkNo) (tag : Byte) (body : List Byte) (floor counter : Nat) (s t : State),
    Serves .setFloor l tag body s t → floor = fieldAt body 0 4 → counter = max s.tokens.toNat floor →
    exec (.setFloor l tag body) s =
      .next (withReply l tag (.doneFloor (BitVec.ofNat 32 counter)) { t with tokens := BitVec.ofNat 32 counter })) ∧
  (∀ (l : LinkNo) (tag : Byte) (body : List Byte) (s t : State), Serves .start l tag body s t →
    exec (.start l tag body) s =
      .next (withReply l tag (.doneStart (s.epoch + 1)) { t with epoch := s.epoch + 1, service := .service }))

/-- RESTART enters SETUP, ends every session, frees every record without a scan, clears the groups, keeps the counter, the
epoch, the profile, the receivers with their gap timers, the transmitters and the adopted settings, but where a flush
discards a SET_LINK's DONE and the unit adopts, and answers DONE last (R166, R118, R157, R147, R133, R77, R107). That a character
in reception goes on at such an adoption is log entry 13. -/
def Obligations.RestartEndsService : Prop :=
  ∀ (l : LinkNo) (tag : Byte) (body : List Byte) (s t : State), Serves .restart l tag body s t →
    ∃ u, exec (.restart l tag body) s = .next u ∧ u.service = .setup ∧ u.run = false ∧
      u.tokens = s.tokens ∧ u.epoch = s.epoch ∧ u.profile = s.profile ∧ u.straps = s.straps ∧ u.uptime = s.uptime ∧
      u.clkin = s.clkin ∧ u.rotation = t.rotation ∧ u.waitList = [] ∧ u.watchList = [] ∧
      (∀ g, u.group g = { generation := 0, arrivals := [] }) ∧
      (∀ i, (s.record i).state = .free → u.record i = s.record i) ∧
      (∀ i, (s.record i).state ≠ .free → u.record i = freed (s.record i)) ∧
      (∀ m, (u.session m).state = .closed ∧ (u.session m).owned = 0 ∧
        (u.link m).intake = (t.link m).intake ∧ (u.link m).counters = (s.link m).counters ∧
        (u.link m).transmitter = (s.link m).transmitter ∧ (u.link m).inCharacter = (s.link m).inCharacter) ∧
      (∀ m v, v = (if (s.session m).isOpen = true ∧ (discarded (s.link m)).any (·.adopts) = true
          then adopted (s.settings m) (s.link m) else s.link m) →
        (u.link m).receiver = v.receiver ∧ (u.link m).gapTimer = v.gapTimer ∧ (u.link m).baud = v.baud ∧
        (u.link m).gap = v.gap) ∧
      (∀ m, (s.session m).isOpen = true → (u.session m).tags = [] ∧ (u.link m).reserved = 0 ∧
        (u.link m).outbound = survivors (s.link m) ++ [{ tag := 0, msg := .ended .restart, adopts := false }] ++
          (if m = l then [{ tag := tag, msg := .doneEmpty, adopts := false }] else [])) ∧
      (∀ m, (s.session m).isOpen = false → (u.link m).reserved = (s.link m).reserved ∧
        (u.link m).outbound = (s.link m).outbound ++
          (if m = l then [{ tag := tag, msg := .doneEmpty, adopts := false }] else []))

/-- PROFILE answers the item its selector and index name, and changes nothing (R167). -/
def Obligations.ProfileReadsBack : Prop :=
  ∀ (l : LinkNo) (tag selector index : Byte) (s t : State), Serves .profile l tag [selector, index] s t →
    (∀ n : LinkNo, selector = 0 → index.toNat = n.val → exec (.profile l tag [selector, index]) s =
      .next (withReply l tag (.doneProfileLink n (s.settings n) (s.link n).baud (s.link n).gap) t)) ∧
    (∀ (n : LinkNo) (k : Fin 4), selector = 1 → index.toNat = 4 * n.val + k.val →
      exec (.profile l tag [selector, index]) s =
        .next (withReply l tag (.doneProfileWindow index.toNat ((s.windows n).get k)) t)) ∧
    (∀ g : GroupNo, selector = 2 → index.toNat = g.val → exec (.profile l tag [selector, index]) s =
      .next (withReply l tag (.doneProfileGroup g (s.groupDef g) (s.group g).generation (s.group g).arrivals.length) t)) ∧
    (selector = 3 → index = 0 → exec (.profile l tag [selector, index]) s =
      .next (withReply l tag (.doneProfileStraps s.straps s.management s.straps.autostart) t)) ∧
    (3 < selector.toNat →
      exec (.profile l tag [selector, index]) s = .next (withReply l tag (.refused .badValue 1) t))

/-- EVICT of a link other than the management link whose session is OPEN lapses it with cause EVICTED and answers DONE last on
the management link (R168, R116). -/
def Obligations.EvictLapsesSession : Prop :=
  ∀ (l n : LinkNo) (tag target : Byte) (s t : State), Serves .evict l tag [target] s t → target.toNat = n.val → n ≠ l →
    (s.session n).isOpen = true →
    ∃ v, exec (.evict l tag [target]) s = .next (withReply l tag .doneEmpty v) ∧ FailureEnded n t v ∧
      (v.session n).state = .lapsed ∧
      (v.link n).outbound = survivors (s.link n) ++ [{ tag := 0, msg := .ended .evicted, adopts := false }] ∧
      (v.link n).reserved = 0

/-! ### Rules over every command -/

/-- Every command but POWER_ON and UPTIME_TICK moves each record only by a row of Table 2-3, on that row's event, or leaves it,
with its reuse count, owner, block, hold limit and token as R17 to R19, R24, R25 and R30 say. What an UPTIME_TICK moves, the
expiries it delivers move (log entry 5): TimePassesAndDelivers. -/
def Obligations.RecordsMoveByTable : Prop :=
  ∀ (c : Instr) (s t : State) (i : RecNo), (∀ m a, c ≠ .powerOn m a) → c ≠ .uptimeTick → SessionsSound s →
    exec c s = .next t → StaysOr (TableMove c s t i) (s.record i) (t.record i)

/-- The token counter never decreases except at power-on (R30). -/
def Obligations.TokenCounterNeverDecreases : Prop :=
  ∀ (c : Instr) (s t : State), (∀ m a, c ≠ .powerOn m a) → exec c s = .next t → s.tokens ≤ t.tokens

/-- Only resets and the setting requests change the profile; only a start of service and POWER_ON change the epoch; only resets,
START and RESTART change the service state; only POWER_ON and the release of RESET_N change the straps; only the tick and
resets change the uptime (R158 to R161, R125). -/
def Obligations.ControlStateChangesOnlyBy : Prop :=
  ∀ (c : Instr) (s t : State), (∀ m a, c ≠ .powerOn m a) → (∀ m a, c ≠ .resetNRelease m a) → c ≠ .resetNAssert →
    exec c s = .next t →
    t.straps = s.straps ∧ t.resetHeld = s.resetHeld ∧
    (t.profile ≠ s.profile → s.service = .setup ∧ ∃ l g b, c = .setLink l g b ∨ c = .setWindow l g b ∨ c = .setGroup l g b) ∧
    (t.epoch ≠ s.epoch → t.epoch = s.epoch + 1 ∧ ∃ l g b, c = .start l g b) ∧
    (t.service ≠ s.service → ∃ l g b, c = .start l g b ∨ c = .restart l g b) ∧
    (t.uptime ≠ s.uptime → c = .uptimeTick)

/-- Without a reset a session's state moves only as Figure 7-1 has it. The lease expiry may be one that an UPTIME_TICK delivers:
log entry 5. -/
def Obligations.SessionsMoveByFigure : Prop :=
  ∀ (c : Instr) (s t : State) (n : LinkNo), (∀ m a, c ≠ .powerOn m a) → c ≠ .resetNAssert → exec c s = .next t →
    ((s.session n).state = .closed → (t.session n).state ≠ .closed →
      (t.session n).isOpen = true ∧ ∃ g b, c = .openSession n g b) ∧
    ((s.session n).isOpen = true → (t.session n).isOpen = false →
      ((t.session n).state = .closed ∧ (c = .breakEnd n ∨ (∃ g b, c = .closeSession n g b) ∨ ∃ l g b, c = .restart l g b)) ∨
      ((t.session n).state = .lapsed ∧ (c = .leaseDeadlineExpiry n ∨ c = .uptimeTick ∨
        ∃ l g b, c = .evict l g b ∧ (byteAt b 0).toNat = n.val))) ∧
    ((s.session n).state = .lapsed → (t.session n).state ≠ .lapsed →
      (t.session n).state = .closed ∧
      (c = .breakEnd n ∨ (∃ g b, c = .closeSession n g b) ∨ ∃ l g b, c = .restart l g b))

/-! ### Invariants of every step -/

/-- The state after power-on meets every invariant below. -/
def Obligations.ResetMeetsInvariants : Prop :=
  HoldingsCompatible State.reset ∧ TokensSound State.reset ∧ GeometrySound State.reset ∧ LimitsSound State.reset ∧
  SessionsSound State.reset ∧ ScanSettled State.reset ∧ DeadlinesInTime State.reset

/-- No two holdings overlap unless both hold in shared mode, and no two CONVERTING records overlap, after any step (R41). -/
def Obligations.StepKeepsHoldingsCompatible : Prop :=
  ∀ s t : State, HoldingsCompatible s → step s = .next t → HoldingsCompatible t

/-- Every holding's token is from 1 to the counter and no two holdings carry the same token, after any step (R30). -/
def Obligations.StepKeepsTokensSound : Prop :=
  ∀ s t : State, TokensSound s → step s = .next t → TokensSound t

/-- Every profile value stays in its range and every record's block stays well-formed, after any step (R161, R6, R89, R13,
R16). -/
def Obligations.StepKeepsGeometrySound : Prop :=
  ∀ s t : State, GeometrySound s → step s = .next t → GeometrySound t

/-- The limits of the pool, the lists, the quotas and the intake queues hold, the lists hold exactly the WAITING and WATCHING
records, and in SETUP nothing is held, after any step (R26, R27, R28, R141, R152, R159). -/
def Obligations.StepKeepsLimitsSound : Prop :=
  ∀ s t : State, LimitsSound s → step s = .next t → LimitsSound t

/-- Open tags, records, arrivals, sessions and the outbound account agree, and no link's queued and reserved entries exceed
40, after any step (R90, R108, R119, R148, R149). -/
def Obligations.StepKeepsSessionsSound : Prop :=
  ∀ s t : State, SessionsSound s → step s = .next t → SessionsSound t

/-- After any step no record that could be granted or fired is left: every WATCHING record overlaps a holding and, unless the
tokens are spent, every WAITING and CONVERTING record is blocked (R50). -/
def Obligations.StepKeepsScanSettled : Prop :=
  ∀ s t : State, ScanSettled s → step s = .next t → ScanSettled t

/-- No armed deadline is ever more than one millisecond past its due point, after any step (R127). That the passing of time
itself delivers an expiry that no command has taken is the model's choice: log entry 5. -/
def Obligations.StepKeepsDeadlinesInTime : Prop :=
  ∀ s t : State, DeadlinesInTime s → step s = .next t → DeadlinesInTime t
end

