-- ==== Sys2Proof/Laws/State.lean ====
section
/-! SUPPORT. One lemma per field per update of the state, and what reading one object gives after writing one. -/

namespace Sys2Proof.Machine

/-- Reading an entry of a vector after writing one. -/
theorem Vector.get_set_fin {α : Type} {n : Nat} (v : Vector α n) (i j : Fin n) (x : α) :
    (v.set i x).get j = if i = j then x else v.get j := by
  simp [Vector.get_eq_getElem, Vector.getElem_set, Fin.ext_iff]

/-- Reading an entry of a vector whose entries have been mapped. -/
@[simp] theorem mapVector_get {α β : Type} {n : Nat} (f : α → β) (v : Vector α n) (i : Fin n) :
    (mapVector f v).get i = f (v.get i) := by
  simp [mapVector, Vector.get]
  rfl

/-! ### After `putLink` -/

@[simp] theorem State.putLink_resetHeld (s : State) (l : LinkNo) (u : LinkUnit) : (s.putLink l u).resetHeld = s.resetHeld := rfl
@[simp] theorem State.putLink_straps (s : State) (l : LinkNo) (u : LinkUnit) : (s.putLink l u).straps = s.straps := rfl
@[simp] theorem State.putLink_service (s : State) (l : LinkNo) (u : LinkUnit) : (s.putLink l u).service = s.service := rfl
@[simp] theorem State.putLink_epoch (s : State) (l : LinkNo) (u : LinkUnit) : (s.putLink l u).epoch = s.epoch := rfl
@[simp] theorem State.putLink_tokens (s : State) (l : LinkNo) (u : LinkUnit) : (s.putLink l u).tokens = s.tokens := rfl
@[simp] theorem State.putLink_uptime (s : State) (l : LinkNo) (u : LinkUnit) : (s.putLink l u).uptime = s.uptime := rfl
@[simp] theorem State.putLink_clkin (s : State) (l : LinkNo) (u : LinkUnit) : (s.putLink l u).clkin = s.clkin := rfl
@[simp] theorem State.putLink_profile (s : State) (l : LinkNo) (u : LinkUnit) : (s.putLink l u).profile = s.profile := rfl
@[simp] theorem State.putLink_sessions (s : State) (l : LinkNo) (u : LinkUnit) : (s.putLink l u).sessions = s.sessions := rfl
@[simp] theorem State.putLink_records (s : State) (l : LinkNo) (u : LinkUnit) : (s.putLink l u).records = s.records := rfl
@[simp] theorem State.putLink_waitList (s : State) (l : LinkNo) (u : LinkUnit) : (s.putLink l u).waitList = s.waitList := rfl
@[simp] theorem State.putLink_watchList (s : State) (l : LinkNo) (u : LinkUnit) : (s.putLink l u).watchList = s.watchList := rfl
@[simp] theorem State.putLink_groups (s : State) (l : LinkNo) (u : LinkUnit) : (s.putLink l u).groups = s.groups := rfl
@[simp] theorem State.putLink_rotation (s : State) (l : LinkNo) (u : LinkUnit) : (s.putLink l u).rotation = s.rotation := rfl
@[simp] theorem State.putLink_pending (s : State) (l : LinkNo) (u : LinkUnit) : (s.putLink l u).pending = s.pending := rfl
@[simp] theorem State.putLink_session (s : State) (l : LinkNo) (u : LinkUnit) (m : LinkNo) : (s.putLink l u).session m = s.session m := rfl
@[simp] theorem State.putLink_record (s : State) (l : LinkNo) (u : LinkUnit) (j : RecNo) : (s.putLink l u).record j = s.record j := rfl
@[simp] theorem State.putLink_group (s : State) (l : LinkNo) (u : LinkUnit) (h : GroupNo) : (s.putLink l u).group h = s.group h := rfl
@[simp] theorem State.putLink_settings (s : State) (l : LinkNo) (u : LinkUnit) (m : LinkNo) : (s.putLink l u).settings m = s.settings m := rfl
@[simp] theorem State.putLink_windows (s : State) (l : LinkNo) (u : LinkUnit) (m : LinkNo) : (s.putLink l u).windows m = s.windows m := rfl
@[simp] theorem State.putLink_groupDef (s : State) (l : LinkNo) (u : LinkUnit) (h : GroupNo) : (s.putLink l u).groupDef h = s.groupDef h := rfl

theorem State.link_putLink (s : State) (l : LinkNo) (u : LinkUnit) (m : LinkNo) :
    (s.putLink l u).link m = if l = m then u else s.link m := Vector.get_set_fin ..

@[simp] theorem State.link_putLink_self (s : State) (l : LinkNo) (u : LinkUnit) : (s.putLink l u).link l = u := by
  simp [State.link_putLink]

theorem State.link_putLink_ne (s : State) (l : LinkNo) (u : LinkUnit) (m : LinkNo) (ne : l ≠ m) :
    (s.putLink l u).link m = s.link m := by
  simp [State.link_putLink, ne]

/-! ### After `putSession` -/

@[simp] theorem State.putSession_resetHeld (s : State) (l : LinkNo) (x : Session) : (s.putSession l x).resetHeld = s.resetHeld := rfl
@[simp] theorem State.putSession_straps (s : State) (l : LinkNo) (x : Session) : (s.putSession l x).straps = s.straps := rfl
@[simp] theorem State.putSession_service (s : State) (l : LinkNo) (x : Session) : (s.putSession l x).service = s.service := rfl
@[simp] theorem State.putSession_epoch (s : State) (l : LinkNo) (x : Session) : (s.putSession l x).epoch = s.epoch := rfl
@[simp] theorem State.putSession_tokens (s : State) (l : LinkNo) (x : Session) : (s.putSession l x).tokens = s.tokens := rfl
@[simp] theorem State.putSession_uptime (s : State) (l : LinkNo) (x : Session) : (s.putSession l x).uptime = s.uptime := rfl
@[simp] theorem State.putSession_clkin (s : State) (l : LinkNo) (x : Session) : (s.putSession l x).clkin = s.clkin := rfl
@[simp] theorem State.putSession_profile (s : State) (l : LinkNo) (x : Session) : (s.putSession l x).profile = s.profile := rfl
@[simp] theorem State.putSession_links (s : State) (l : LinkNo) (x : Session) : (s.putSession l x).links = s.links := rfl
@[simp] theorem State.putSession_records (s : State) (l : LinkNo) (x : Session) : (s.putSession l x).records = s.records := rfl
@[simp] theorem State.putSession_waitList (s : State) (l : LinkNo) (x : Session) : (s.putSession l x).waitList = s.waitList := rfl
@[simp] theorem State.putSession_watchList (s : State) (l : LinkNo) (x : Session) : (s.putSession l x).watchList = s.watchList := rfl
@[simp] theorem State.putSession_groups (s : State) (l : LinkNo) (x : Session) : (s.putSession l x).groups = s.groups := rfl
@[simp] theorem State.putSession_rotation (s : State) (l : LinkNo) (x : Session) : (s.putSession l x).rotation = s.rotation := rfl
@[simp] theorem State.putSession_pending (s : State) (l : LinkNo) (x : Session) : (s.putSession l x).pending = s.pending := rfl
@[simp] theorem State.putSession_link (s : State) (l : LinkNo) (x : Session) (m : LinkNo) : (s.putSession l x).link m = s.link m := rfl
@[simp] theorem State.putSession_record (s : State) (l : LinkNo) (x : Session) (j : RecNo) : (s.putSession l x).record j = s.record j := rfl
@[simp] theorem State.putSession_group (s : State) (l : LinkNo) (x : Session) (h : GroupNo) : (s.putSession l x).group h = s.group h := rfl
@[simp] theorem State.putSession_settings (s : State) (l : LinkNo) (x : Session) (m : LinkNo) : (s.putSession l x).settings m = s.settings m := rfl
@[simp] theorem State.putSession_windows (s : State) (l : LinkNo) (x : Session) (m : LinkNo) : (s.putSession l x).windows m = s.windows m := rfl
@[simp] theorem State.putSession_groupDef (s : State) (l : LinkNo) (x : Session) (h : GroupNo) : (s.putSession l x).groupDef h = s.groupDef h := rfl

theorem State.session_putSession (s : State) (l : LinkNo) (x : Session) (m : LinkNo) :
    (s.putSession l x).session m = if l = m then x else s.session m := Vector.get_set_fin ..

@[simp] theorem State.session_putSession_self (s : State) (l : LinkNo) (x : Session) : (s.putSession l x).session l = x := by
  simp [State.session_putSession]

theorem State.session_putSession_ne (s : State) (l : LinkNo) (x : Session) (m : LinkNo) (ne : l ≠ m) :
    (s.putSession l x).session m = s.session m := by
  simp [State.session_putSession, ne]

/-! ### After `putRecord` -/

@[simp] theorem State.putRecord_resetHeld (s : State) (i : RecNo) (r : Record) : (s.putRecord i r).resetHeld = s.resetHeld := rfl
@[simp] theorem State.putRecord_straps (s : State) (i : RecNo) (r : Record) : (s.putRecord i r).straps = s.straps := rfl
@[simp] theorem State.putRecord_service (s : State) (i : RecNo) (r : Record) : (s.putRecord i r).service = s.service := rfl
@[simp] theorem State.putRecord_epoch (s : State) (i : RecNo) (r : Record) : (s.putRecord i r).epoch = s.epoch := rfl
@[simp] theorem State.putRecord_tokens (s : State) (i : RecNo) (r : Record) : (s.putRecord i r).tokens = s.tokens := rfl
@[simp] theorem State.putRecord_uptime (s : State) (i : RecNo) (r : Record) : (s.putRecord i r).uptime = s.uptime := rfl
@[simp] theorem State.putRecord_clkin (s : State) (i : RecNo) (r : Record) : (s.putRecord i r).clkin = s.clkin := rfl
@[simp] theorem State.putRecord_profile (s : State) (i : RecNo) (r : Record) : (s.putRecord i r).profile = s.profile := rfl
@[simp] theorem State.putRecord_links (s : State) (i : RecNo) (r : Record) : (s.putRecord i r).links = s.links := rfl
@[simp] theorem State.putRecord_sessions (s : State) (i : RecNo) (r : Record) : (s.putRecord i r).sessions = s.sessions := rfl
@[simp] theorem State.putRecord_waitList (s : State) (i : RecNo) (r : Record) : (s.putRecord i r).waitList = s.waitList := rfl
@[simp] theorem State.putRecord_watchList (s : State) (i : RecNo) (r : Record) : (s.putRecord i r).watchList = s.watchList := rfl
@[simp] theorem State.putRecord_groups (s : State) (i : RecNo) (r : Record) : (s.putRecord i r).groups = s.groups := rfl
@[simp] theorem State.putRecord_rotation (s : State) (i : RecNo) (r : Record) : (s.putRecord i r).rotation = s.rotation := rfl
@[simp] theorem State.putRecord_pending (s : State) (i : RecNo) (r : Record) : (s.putRecord i r).pending = s.pending := rfl
@[simp] theorem State.putRecord_link (s : State) (i : RecNo) (r : Record) (m : LinkNo) : (s.putRecord i r).link m = s.link m := rfl
@[simp] theorem State.putRecord_session (s : State) (i : RecNo) (r : Record) (m : LinkNo) : (s.putRecord i r).session m = s.session m := rfl
@[simp] theorem State.putRecord_group (s : State) (i : RecNo) (r : Record) (h : GroupNo) : (s.putRecord i r).group h = s.group h := rfl
@[simp] theorem State.putRecord_settings (s : State) (i : RecNo) (r : Record) (m : LinkNo) : (s.putRecord i r).settings m = s.settings m := rfl
@[simp] theorem State.putRecord_windows (s : State) (i : RecNo) (r : Record) (m : LinkNo) : (s.putRecord i r).windows m = s.windows m := rfl
@[simp] theorem State.putRecord_groupDef (s : State) (i : RecNo) (r : Record) (h : GroupNo) : (s.putRecord i r).groupDef h = s.groupDef h := rfl

theorem State.record_putRecord (s : State) (i : RecNo) (r : Record) (j : RecNo) :
    (s.putRecord i r).record j = if i = j then r else s.record j := Vector.get_set_fin ..

@[simp] theorem State.record_putRecord_self (s : State) (i : RecNo) (r : Record) : (s.putRecord i r).record i = r := by
  simp [State.record_putRecord]

theorem State.record_putRecord_ne (s : State) (i : RecNo) (r : Record) (j : RecNo) (ne : i ≠ j) :
    (s.putRecord i r).record j = s.record j := by
  simp [State.record_putRecord, ne]

/-! ### After `putGroup` -/

@[simp] theorem State.putGroup_resetHeld (s : State) (g : GroupNo) (x : Group) : (s.putGroup g x).resetHeld = s.resetHeld := rfl
@[simp] theorem State.putGroup_straps (s : State) (g : GroupNo) (x : Group) : (s.putGroup g x).straps = s.straps := rfl
@[simp] theorem State.putGroup_service (s : State) (g : GroupNo) (x : Group) : (s.putGroup g x).service = s.service := rfl
@[simp] theorem State.putGroup_epoch (s : State) (g : GroupNo) (x : Group) : (s.putGroup g x).epoch = s.epoch := rfl
@[simp] theorem State.putGroup_tokens (s : State) (g : GroupNo) (x : Group) : (s.putGroup g x).tokens = s.tokens := rfl
@[simp] theorem State.putGroup_uptime (s : State) (g : GroupNo) (x : Group) : (s.putGroup g x).uptime = s.uptime := rfl
@[simp] theorem State.putGroup_clkin (s : State) (g : GroupNo) (x : Group) : (s.putGroup g x).clkin = s.clkin := rfl
@[simp] theorem State.putGroup_profile (s : State) (g : GroupNo) (x : Group) : (s.putGroup g x).profile = s.profile := rfl
@[simp] theorem State.putGroup_links (s : State) (g : GroupNo) (x : Group) : (s.putGroup g x).links = s.links := rfl
@[simp] theorem State.putGroup_sessions (s : State) (g : GroupNo) (x : Group) : (s.putGroup g x).sessions = s.sessions := rfl
@[simp] theorem State.putGroup_records (s : State) (g : GroupNo) (x : Group) : (s.putGroup g x).records = s.records := rfl
@[simp] theorem State.putGroup_waitList (s : State) (g : GroupNo) (x : Group) : (s.putGroup g x).waitList = s.waitList := rfl
@[simp] theorem State.putGroup_watchList (s : State) (g : GroupNo) (x : Group) : (s.putGroup g x).watchList = s.watchList := rfl
@[simp] theorem State.putGroup_rotation (s : State) (g : GroupNo) (x : Group) : (s.putGroup g x).rotation = s.rotation := rfl
@[simp] theorem State.putGroup_pending (s : State) (g : GroupNo) (x : Group) : (s.putGroup g x).pending = s.pending := rfl
@[simp] theorem State.putGroup_link (s : State) (g : GroupNo) (x : Group) (m : LinkNo) : (s.putGroup g x).link m = s.link m := rfl
@[simp] theorem State.putGroup_session (s : State) (g : GroupNo) (x : Group) (m : LinkNo) : (s.putGroup g x).session m = s.session m := rfl
@[simp] theorem State.putGroup_record (s : State) (g : GroupNo) (x : Group) (j : RecNo) : (s.putGroup g x).record j = s.record j := rfl
@[simp] theorem State.putGroup_settings (s : State) (g : GroupNo) (x : Group) (m : LinkNo) : (s.putGroup g x).settings m = s.settings m := rfl
@[simp] theorem State.putGroup_windows (s : State) (g : GroupNo) (x : Group) (m : LinkNo) : (s.putGroup g x).windows m = s.windows m := rfl
@[simp] theorem State.putGroup_groupDef (s : State) (g : GroupNo) (x : Group) (h : GroupNo) : (s.putGroup g x).groupDef h = s.groupDef h := rfl

theorem State.group_putGroup (s : State) (g : GroupNo) (x : Group) (h : GroupNo) :
    (s.putGroup g x).group h = if g = h then x else s.group h := Vector.get_set_fin ..

@[simp] theorem State.group_putGroup_self (s : State) (g : GroupNo) (x : Group) : (s.putGroup g x).group g = x := by
  simp [State.group_putGroup]

theorem State.group_putGroup_ne (s : State) (g : GroupNo) (x : Group) (h : GroupNo) (ne : g ≠ h) :
    (s.putGroup g x).group h = s.group h := by
  simp [State.group_putGroup, ne]

end Sys2Proof.Machine
end

