-- ==== Sys2Proof/Laws/Ops.lean ====
section
/-! SUPPORT. What each shared operation does, said once: the operations on link units, tags and records, the dispatcher's
taking of a frame and its checks. -/

namespace Sys2Proof.Machine

open Sys2Proof.Safety

/-! ### Writing the same object twice -/

theorem Vector.set_set_fin {α : Type} {n : Nat} (v : Vector α n) (i : Fin n) (x y : α) :
    (v.set i x).set i y = v.set i y := by simp

theorem Vector.set_get_fin {α : Type} {n : Nat} (v : Vector α n) (i : Fin n) : v.set i (v.get i) = v := by
  ext j hj
  simp only [Vector.getElem_set]
  split
  · subst_vars; rfl
  · rfl

@[simp] theorem State.putLink_putLink (s : State) (l : LinkNo) (u v : LinkUnit) :
    (s.putLink l u).putLink l v = s.putLink l v := by
  simp [State.putLink]

@[simp] theorem State.putSession_putSession (s : State) (l : LinkNo) (x y : Session) :
    (s.putSession l x).putSession l y = s.putSession l y := by
  simp [State.putSession]

@[simp] theorem State.putRecord_putRecord (s : State) (i : RecNo) (x y : Record) :
    (s.putRecord i x).putRecord i y = s.putRecord i y := by
  simp [State.putRecord]

@[simp] theorem State.putLink_link_self (s : State) (l : LinkNo) : s.putLink l (s.link l) = s := by
  simp [State.putLink, State.link, Vector.set_get_fin]

@[simp] theorem State.putSession_session_self (s : State) (l : LinkNo) : s.putSession l (s.session l) = s := by
  simp [State.putSession, State.session, Vector.set_get_fin]

/-- Writing a session and writing a link unit commute. -/
theorem State.putSession_putLink (s : State) (l m : LinkNo) (u : LinkUnit) (x : Session) :
    (s.putLink l u).putSession m x = (s.putSession m x).putLink l u := rfl

/-- Writing a record and writing a link unit commute. -/
theorem State.putRecord_putLink (s : State) (l : LinkNo) (i : RecNo) (u : LinkUnit) (r : Record) :
    (s.putLink l u).putRecord i r = (s.putRecord i r).putLink l u := rfl

/-- Writing a record and writing a session commute. -/
theorem State.putRecord_putSession (s : State) (l : LinkNo) (i : RecNo) (x : Session) (r : Record) :
    (s.putSession l x).putRecord i r = (s.putRecord i r).putSession l x := rfl

/-! ### Replies and tags -/

/-- A reply is one more message of the link's outbound queue (R148, R155). -/
theorem reply_eq (l : LinkNo) (tag : Byte) (m : Message) (s : State) : reply l tag m s = withReply l tag m s := rfl

/-- Closing a tag: one message queued, one reservation gone, one entry gone (R121, R148). -/
theorem closeTag_eq (l : LinkNo) (tag : Byte) (m : Message) (s : State) :
    closeTag l tag m s =
      { s with
        links := s.links.set l { s.link l with
          outbound := (s.link l).outbound ++ [{ tag := tag, msg := m, adopts := false }]
          reserved := (s.link l).reserved - 1 }
        sessions := s.sessions.set l { s.session l with tags := (s.session l).tags.filter (·.tag ≠ tag) } } := rfl

/-- Opening a tag: one entry at the tail of the list and one reservation more (R120, R148). -/
theorem openTag_eq (l : LinkNo) (tag : Byte) (ref : TagRef) (s : State) :
    openTag l tag ref s =
      { s with
        links := s.links.set l { s.link l with reserved := (s.link l).reserved + 1 }
        sessions := s.sessions.set l { s.session l with tags := (s.session l).tags ++ [{ tag := tag, ref := ref }] } } :=
  rfl

/-! ### Records -/

/-- Taking a FREE record: the record is written and its owner's count rises (R18, R28). -/
theorem allocate_eq (i : RecNo) (l : LinkNo) (x : RecState) (s : State) :
    allocate i l x s =
      { s with
        records := s.records.set i { reuse := (s.record i).reuse, state := x }
        sessions := s.sessions.set l { s.session l with owned := (s.session l).owned + 1 } } := rfl

/-- Freeing a record in use (R19). -/
theorem freeRecord_eq (i : RecNo) (s : State) (l : LinkNo) (owner : (s.record i).state.owner = some l) :
    freeRecord i s =
      { s with
        records := s.records.set i (freed (s.record i))
        sessions := s.sessions.set l { s.session l with owned := (s.session l).owned - 1 }
        waitList := s.waitList.filter (· ≠ i)
        watchList := s.watchList.filter (· ≠ i) } := by
  have used : (s.record i).state ≠ .free := by intro h; simp [h, RecState.owner] at owner
  simp [freeRecord, used, owner, disown, State.putSession, State.putRecord, freed]

/-- A FREE record is left as it is by freeing it. -/
theorem freeRecord_free (i : RecNo) (s : State) (free : (s.record i).state = .free) : freeRecord i s = s := by
  simp [freeRecord, free]

/-- The lowest FREE record, as R18 says it. -/
theorem lowestFree_eq_some_iff (s : State) (i : RecNo) : s.lowestFree = some i ↔ LowestFree s i := by
  unfold State.lowestFree LowestFree
  rw [List.find?_eq_some_iff_getElem]
  simp only [decide_eq_true_eq, List.getElem_finRange, Bool.not_eq_true', decide_eq_false_iff_not]
  constructor
  · rintro ⟨free, k, hk, e, lower⟩
    refine ⟨free, fun j hj => ?_⟩
    have : j.val < k := by rw [← e] at hj; simpa [Fin.lt_def] using hj
    simpa using lower j.val this
  · rintro ⟨free, lower⟩
    exact ⟨free, i.val, by simp, by simp, fun j hj => by simpa using lower ⟨j, by omega⟩ (by simpa [Fin.lt_def] using hj)⟩

/-! ### The dispatcher -/

/-- Taking a frame, as R141 and R152 say it. -/
theorem take_eq_some_iff (l : LinkNo) (f : Frame) (s t : State) : take l f s = some t ↔ TakesFrame l f s t := by
  unfold take TakesFrame
  constructor
  · intro h
    split at h
    · rename_i turn g rest held next intake
      split at h
      · rename_i ok
        refine ⟨rest, turn, held, by rw [intake, ok.2], next, ok.1, ?_⟩
        simpa [State.putLink] using h.symm
      · cases h
    · cases h
  · rintro ⟨rest, turn, held, intake, next, cur, rfl⟩
    simp [held, intake, next, cur, State.putLink]

/-- No test of a list fails exactly when each of them is false. -/
theorem firstFailure_eq_none_iff {α : Type} (tests : List (Bool × α)) :
    firstFailure tests = none ↔ ∀ x ∈ tests, x.1 = false := by
  induction tests with
  | nil => simp [firstFailure]
  | cons x rest ih => obtain ⟨b, a⟩ := x; cases b <;> simp [firstFailure, ih]

/-- A session is OPEN when it is neither CLOSED nor LAPSED. -/
theorem Session.isOpen_iff (x : Session) : x.isOpen = true ↔ x.state ≠ .closed ∧ x.state ≠ .lapsed := by
  unfold Session.isOpen; cases x.state <;> simp

/-- The common checks pass exactly when every condition of Table 10-2 holds. -/
theorem commonChecks_eq_none_iff (k : ReqKind) (l : LinkNo) (tag : Byte) (body : List Byte) (s : State) :
    commonChecks k l tag body s = none ↔ PassesChecks k l tag body s := by
  have service : s.service = .setup ↔ ¬ s.service = .service := by cases s.service <;> simp
  rw [commonChecks, firstFailure_eq_none_iff, PassesChecks, Session.isOpen_iff]
  simp [service, Session.lookup, Config.openTagRoom]
  grind

/-- A request that the dispatcher takes and that passes the common checks is carried out by its owner. -/
theorem serve_eq (k : ReqKind) (l : LinkNo) (tag : Byte) (body : List Byte) (owner : State → State) (s t : State)
    (h : Serves k l tag body s t) : serve k l tag body owner s = .next (owner t) := by
  obtain ⟨taken, pass⟩ := h
  have checks : commonChecks k l tag body t = none := by
    rw [commonChecks_eq_none_iff]
    obtain ⟨rest, turn, _, _, _, _, rfl⟩ := taken
    exact pass
  rw [← take_eq_some_iff] at taken
  simp [serve, taken, checks]

end Sys2Proof.Machine
end

