-- ==== Sys2Proof/Laws/Views.lean ====
section
/-! SUPPORT. The Boolean views of the pool, the windows and the groups, each as the proposition that the spec's rule states. -/

namespace Sys2Proof.Machine

open Sys2Proof.Safety

/-- Some entry of a vector satisfies a test. -/
theorem Vector.any_toList_iff {α : Type} {n : Nat} (v : Vector α n) (p : α → Bool) :
    v.toList.any p = true ↔ ∃ j : Fin n, p (v.get j) = true := by
  simp only [List.any_eq_true]
  constructor
  · rintro ⟨r, hr, h⟩
    rw [Vector.mem_toList_iff, Vector.mem_iff_getElem] at hr
    obtain ⟨j, hj, rfl⟩ := hr
    exact ⟨⟨j, hj⟩, h⟩
  · rintro ⟨j, h⟩
    exact ⟨v.get j, by simp [Vector.get_eq_getElem], h⟩

/-- A claim blocks another when the two conflict (R5). -/
theorem blocks_iff (s : State) (j : RecNo) (b : Block) (m : Mode) :
    (s.record j).state.blocks b m = true ↔ ConflictsWith s j b m := by
  unfold RecState.blocks ConflictsWith
  cases (s.record j).state.claim with
  | none => simp
  | some x => obtain ⟨c, n⟩ := x; simp [conflicts]

/-- A record holds over a block when it is a holding that overlaps it (R3). -/
theorem holdsOver_iff (s : State) (j : RecNo) (b : Block) :
    (s.record j).state.holdsOver b = true ↔ HoldsOver s j b := by
  unfold RecState.holdsOver HoldsOver holdingBlock
  cases (s.record j).state.holding <;> simp

/-- R35's decision. -/
theorem claimConflicts_iff (s : State) (b : Block) (m : Mode) :
    s.claimConflicts b m = true ↔ ∃ j, ConflictsWith s j b m := by
  rw [State.claimConflicts, Vector.any_toList_iff]
  exact exists_congr fun j => blocks_iff s j b m

/-- The test of WATCH and of the watch phase (R79, R82). -/
theorem heldOver_iff (s : State) (b : Block) : s.heldOver b = true ↔ ∃ j, HoldsOver s j b := by
  rw [State.heldOver, Vector.any_toList_iff]
  exact exists_congr fun j => holdsOver_iff s j b

/-- The test of an upgrade and of the converter phase (R44, R61). -/
theorem otherHeldOver_iff (s : State) (i : RecNo) (b : Block) :
    s.otherHeldOver i b = true ↔ ∃ j, j ≠ i ∧ HoldsOver s j b := by
  simp [State.otherHeldOver, holdsOver_iff]

/-- The deadlock test of an upgrade (R62). -/
theorem otherConvertingOver_iff (s : State) (i : RecNo) (b : Block) :
    s.otherConvertingOver i b = true ↔ ∃ j, j ≠ i ∧ HoldsOver s j b ∧ (s.record j).state.isConverting = true := by
  simp only [State.otherConvertingOver, List.any_eq_true, List.mem_finRange, true_and, Bool.and_eq_true,
    decide_eq_true_eq, holdsOver_iff, and_assoc]
  exact exists_congr fun j => by tauto

/-- The window search (R11). -/
theorem findWindow_eq_some_iff (s : State) (l : LinkNo) (b : Block) (w : Window) :
    findWindow (s.windows l) b = some w ↔ FirstWindow s l b w := by
  unfold findWindow FirstWindow
  rw [List.find?_eq_some_iff_getElem]
  simp [Vector.get_eq_getElem]
  constructor
  · rintro ⟨h, i, hi, e, g⟩
    exact ⟨⟨i, hi⟩, e, h, fun j hj => g j.val hj⟩
  · rintro ⟨k, e, h, g⟩
    exact ⟨h, k.val, k.isLt, e, fun j hj => g ⟨j, by omega⟩ hj⟩

/-- The exponent and alignment checks pass (R10 steps 1 and 2). -/
theorem blockFault_eq_none_iff (b : Block) : blockFault b = none ↔ b.exp ≤ 24 ∧ b.base % 2 ^ b.exp = 0 := by
  rw [blockFault, firstFailure_eq_none_iff]
  simp
  intro _
  exact Iff.rfl

/-- An admitted block's checks and search (R10, R11). -/
theorem admitBlock_eq (s : State) (l : LinkNo) (b : Block) (w : Window) (h : Admits s l b w) :
    admitBlock l b s = .ok (w.translate b) := by
  obtain ⟨e, a, f⟩ := h
  rw [← findWindow_eq_some_iff] at f
  simp [admitBlock, (blockFault_eq_none_iff b).2 ⟨e, a⟩, f]

/-- An admitted ACQUIRE's checks and search (R10 to R12). -/
theorem admitAcquire_eq (s : State) (l : LinkNo) (b : Block) (mode : Byte) (m : Mode) (w : Window) (h : Admits s l b w)
    (code : Mode.ofCode mode = some m) (access : ¬ (m = .exclusive ∧ w.access = .sharedOnly)) :
    admitAcquire l b mode s = .ok (w.translate b, m) := by
  obtain ⟨e, a, f⟩ := h
  rw [← findWindow_eq_some_iff] at f
  simp [admitAcquire, (blockFault_eq_none_iff b).2 ⟨e, a⟩, code, f, access]

/-- The record a valid handle names (R22). -/
theorem named_eq_some_iff (s : State) (l : LinkNo) (handle : Nat) (i : RecNo) :
    s.named l handle = some i ↔
      i.val = handle % 128 ∧ (s.record i).state.owner = some l ∧ (s.record i).reuse.toNat = handle / 128 := by
  have number : (Fin.ofNat 128 handle : RecNo) = i ↔ i.val = handle % 128 := by
    rw [Fin.ext_iff, Fin.val_ofNat]; exact eq_comm
  simp only [State.named, Option.ite_none_right_eq_some, Option.some.injEq]
  rw [← number]
  constructor
  · rintro ⟨ok, rfl⟩; exact ⟨rfl, ok⟩
  · rintro ⟨rfl, ok⟩; exact ⟨ok, rfl⟩

/-- The room test passes (R29). -/
theorem roomTest_eq_none_iff (l : LinkNo) (listFull : Bool) (s : State) :
    roomTest l listFull s = none ↔ BelowQuota s l ∧ s.lowestFree ≠ none ∧ listFull = false := by
  unfold roomTest BelowQuota
  by_cases q : (s.session l).owned = (s.settings l).quota <;> by_cases f : s.lowestFree = none <;>
    cases listFull <;> simp [q, f]

/-- A link is in an arrival list. -/
theorem hasArrived_iff (arrivals : List Arrival) (l : LinkNo) :
    hasArrived arrivals l = true ↔ ∃ a ∈ arrivals, a.link = l := by simp [hasArrived]

/-- Every live member has arrived, or is the link `also` (R93, R105). -/
theorem allArrived_iff (s : State) (g : GroupNo) (also : Option LinkNo) :
    s.allArrived g also = true ↔
      ∀ m, s.isLive g m = true → (∃ a ∈ (s.group g).arrivals, a.link = m) ∨ also = some m := by
  simp only [State.allArrived, List.all_eq_true, List.mem_finRange, true_implies, Bool.or_eq_true, Bool.not_eq_true',
    hasArrived_iff, decide_eq_true_eq]
  refine forall_congr' fun m => ?_
  cases s.isLive g m <;> simp

/-- A deadline armed now for a wait limit (R128). -/
theorem waitDue_eq (s : State) (limit : Nat) : s.waitDue limit = waitFrom s limit := by
  simp only [State.waitDue, waitFrom, State.due, Bool.or_eq_true, decide_eq_true_eq]
  rfl

/-- A hold limit with its deadline armed now (R25, R129). -/
theorem armHold_eq (s : State) (limit : Nat) : s.armHold (holdLimitOf limit) = holdFrom s limit := by
  unfold State.armHold holdLimitOf holdFrom
  split <;> simp [State.due]

end Sys2Proof.Machine
end

