-- ==== Sys2Proof/Laws/Scan.lean ====
section
/-! SUPPORT. What the grant scan, the frees, the notices and the flush do, each said once: an induction over the grants and
fires of a scan, and the record each operation leaves. -/

namespace Sys2Proof.Machine

open Sys2Proof.Safety

/-! ### One grant, one fire -/

/-- The grant of a conversion (R44). -/
theorem grantConverter_eq (i : RecNo) (o : LinkNo) (b : Block) (tag : Byte) (hold : Option Hold) (s : State) :
    grantConverter i o b tag hold s =
      { s with
        tokens := s.tokens + 1
        records := s.records.set i { reuse := (s.record i).reuse, state := .held o b .exclusive (s.tokens + 1) hold }
        links := s.links.set o { s.link o with
          outbound := (s.link o).outbound ++
            [{ tag := tag, msg := .granted (s.handle i) (s.tokens + 1) .exclusive, adopts := false }]
          reserved := (s.link o).reserved - 1 }
        sessions := s.sessions.set o { s.session o with tags := (s.session o).tags.filter (·.tag ≠ tag) } } := rfl

/-- The grant of a WAITING record (R46). -/
theorem grantWaiter_eq (i : RecNo) (o : LinkNo) (b : Block) (m : Mode) (tag : Byte) (limit : Option Nat) (s : State) :
    grantWaiter i o b m tag limit s =
      { s with
        tokens := s.tokens + 1
        records := s.records.set i
          { reuse := (s.record i).reuse, state := .held o b m (s.tokens + 1) (s.armHold limit) }
        waitList := s.waitList.filter (· ≠ i)
        links := s.links.set o { s.link o with
          outbound := (s.link o).outbound ++
            [{ tag := tag, msg := .granted (s.handle i) (s.tokens + 1) m, adopts := false }]
          reserved := (s.link o).reserved - 1 }
        sessions := s.sessions.set o { s.session o with tags := (s.session o).tags.filter (·.tag ≠ tag) } } := rfl

/-- The firing of a watch (R82). -/
theorem fireWatch_eq (i : RecNo) (o : LinkNo) (b : Block) (tag : Byte) (d : Option Instant) (s : State)
    (h : (s.record i).state = .watching o b tag d) :
    fireWatch i o tag s =
      { s with
        records := s.records.set i (freed (s.record i))
        waitList := s.waitList.filter (· ≠ i)
        watchList := s.watchList.filter (· ≠ i)
        links := s.links.set o { s.link o with
          outbound := (s.link o).outbound ++ [{ tag := tag, msg := .fired (s.handle i), adopts := false }]
          reserved := (s.link o).reserved - 1 }
        sessions := s.sessions.set o { s.session o with
          tags := (s.session o).tags.filter (·.tag ≠ tag), owned := (s.session o).owned - 1 } } := by
  unfold fireWatch
  rw [freeRecord_eq i _ o (by show (s.record i).state.owner = _; simp [h, RecState.owner]), closeTag_eq]
  simp [State.session, State.record, Vector.get_set_fin]

/-! ### The scan as a sequence of grants and fires -/

/-- What every grant of a conversion keeps, the converter phase keeps. -/
theorem converterPhase_induct (P : State → Prop)
    (grant : ∀ t i o b token tag w hold, P t → (t.record i).state = .converting o b token tag w hold →
      t.tokensSpent = false → t.otherHeldOver i b = false → P (grantConverter i o b tag hold t))
    (s : State) (h : P s) : P (converterPhase s) := by
  unfold converterPhase
  induction List.finRange 128 generalizing s with
  | nil => exact h
  | cons i rest ih =>
    refine ih _ ?_
    unfold examineConverter
    split
    · rename_i o b token tag w hold state
      split
      · exact h
      · rename_i open_
        rw [Bool.or_eq_true, not_or, Bool.not_eq_true, Bool.not_eq_true] at open_
        exact grant s i o b token tag w hold h state open_.1 open_.2
    · exact h
    · exact h
    · exact h
    · exact h

/-- What every grant of a WAITING record keeps, the wait-list phase keeps. -/
theorem waitPhase_induct (P : State → Prop)
    (grant : ∀ t i o b m tag w limit, P t → (t.record i).state = .waiting o b m tag w limit →
      t.tokensSpent = false → t.heldAgainst b m = false → P (grantWaiter i o b m tag limit t))
    (toExamine earlier : List RecNo) (s : State) (h : P s) : P (waitPhase toExamine earlier s) := by
  induction toExamine generalizing s earlier with
  | nil => exact h
  | cons i rest ih =>
    unfold waitPhase
    split
    · rename_i o b m tag w limit state
      split
      · exact ih _ _ h
      · rename_i open_
        rw [Bool.or_eq_true, Bool.or_eq_true, not_or, not_or, Bool.not_eq_true, Bool.not_eq_true] at open_
        exact ih _ _ (grant s i o b m tag w limit h state open_.1.1 open_.1.2)
    · exact ih _ _ h
    · exact ih _ _ h
    · exact ih _ _ h
    · exact ih _ _ h

/-- What every firing keeps, the watch phase keeps. -/
theorem watchPhase_induct (P : State → Prop)
    (fire : ∀ t i o b tag w, P t → (t.record i).state = .watching o b tag w → t.heldOver b = false →
      P (fireWatch i o tag t))
    (s : State) (h : P s) : P (watchPhase s) := by
  unfold watchPhase
  induction s.watchList generalizing s with
  | nil => exact h
  | cons i rest ih =>
    refine ih _ ?_
    unfold examineWatch
    split
    · rename_i o b tag w state
      split
      · exact h
      · rename_i quiet
        exact fire s i o b tag w h state (by simpa using quiet)
    · exact h
    · exact h
    · exact h
    · exact h

/-- What every grant and every firing keeps, the grant scan keeps. -/
theorem grantScan_induct (P : State → Prop)
    (convert : ∀ t i o b token tag w hold, P t → (t.record i).state = .converting o b token tag w hold →
      t.tokensSpent = false → t.otherHeldOver i b = false → P (grantConverter i o b tag hold t))
    (wait : ∀ t i o b m tag w limit, P t → (t.record i).state = .waiting o b m tag w limit →
      t.tokensSpent = false → t.heldAgainst b m = false → P (grantWaiter i o b m tag limit t))
    (fire : ∀ t i o b tag w, P t → (t.record i).state = .watching o b tag w → t.heldOver b = false →
      P (fireWatch i o tag t))
    (s : State) (h : P s) : P (grantScan s) :=
  watchPhase_induct P fire _ (waitPhase_induct P wait _ _ _ (converterPhase_induct P convert s h))

/-- The grant scan leaves everything but records, tokens, lists, sessions and link units as it is (R43). -/
theorem grantScan_frame (s : State) :
    SameControl s (grantScan s) ∧ (grantScan s).groups = s.groups := by
  refine grantScan_induct (fun t => SameControl s t ∧ t.groups = s.groups) ?_ ?_ ?_ s ?_
  · intro t i o b token tag w hold h _ _ _; exact h
  · intro t i o b m tag w limit h _ _ _; exact h
  · intro t i o b tag w h state _; rw [fireWatch_eq i o b tag w t state]; exact h
  · exact ⟨⟨rfl, rfl, rfl, rfl, rfl, rfl, rfl, rfl, rfl⟩, rfl⟩

/-! ### Frees, notices, flush -/

/-- What every free of an owned record keeps, the frees of a link's records keep. -/
theorem freeOwned_induct (P : State → Prop) (freeOne : RecNo → State → State) (l : LinkNo)
    (free : ∀ t i, P t → (t.record i).state.owner = some l → P (freeOne i t)) (s : State) (h : P s) :
    P (freeOwned freeOne l s) := by
  unfold freeOwned
  induction List.finRange 128 generalizing s with
  | nil => exact h
  | cons i rest ih =>
    refine ih _ ?_
    dsimp only
    split
    · rename_i own; exact free s i h own
    · exact h

/-- What every closing of a tag keeps, the notices of a round keep. -/
theorem notifyArrivals_induct (P : State → Prop) (notice : Nat → Message)
    (close : ∀ t l tag m, P t → P (closeTag l tag m t)) (rank : Nat) (list : List Arrival) (s : State) (h : P s) :
    P (notifyArrivals notice rank list s) := by
  induction list generalizing rank s with
  | nil => exact h
  | cons a rest ih => exact ih _ _ (close s a.link a.tag (notice rank) h)

/-- The end of a round empties its list and advances its generation (R90). -/
theorem endRound_eq (g : GroupNo) (s : State) :
    endRound g s = { s with groups := s.groups.set g { generation := (s.group g).generation + 1, arrivals := [] } } :=
  rfl

/-- A withdrawal (R101). -/
theorem withdraw_eq (l : LinkNo) (tag : Byte) (g : GroupNo) (s : State) :
    withdraw l tag g s =
      { s with
        groups := s.groups.set g { s.group g with arrivals := (s.group g).arrivals.filter (·.link ≠ l) }
        sessions := s.sessions.set l { s.session l with tags := (s.session l).tags.filter (·.tag ≠ tag) }
        links := s.links.set l { s.link l with
          outbound := (s.link l).outbound ++
            [{ tag := tag, msg := .cancelledArrival g (s.group g).generation, adopts := false }]
          reserved := (s.link l).reserved - 1 } } := rfl

/-- A conversion's fall back to HELD SHARED (R66, R67). -/
theorem endConversion_eq (i : RecNo) (notice : Half → Message) (o : LinkNo) (b : Block) (token : Word) (tag : Byte)
    (w : Option Instant) (hold : Option Hold) (s : State)
    (h : (s.record i).state = .converting o b token tag w hold) :
    endConversion i notice s =
      { s with
        records := s.records.set i { reuse := (s.record i).reuse, state := .held o b .shared token hold }
        sessions := s.sessions.set o { s.session o with tags := (s.session o).tags.filter (·.tag ≠ tag) }
        links := s.links.set o { s.link o with
          outbound := (s.link o).outbound ++ [{ tag := tag, msg := notice (s.handle i), adopts := false }]
          reserved := (s.link o).reserved - 1 } } := by
  unfold endConversion; rw [h]; rfl

/-- The entries a flush keeps (R156). -/
theorem keptByFlush_eq (u : LinkUnit) : u.keptByFlush = survivors u := by
  unfold LinkUnit.keptByFlush survivors LinkUnit.isSending
  cases u.transmitter <;> simp

/-- The entries a flush discards (R156). -/
theorem lostByFlush_eq (u : LinkUnit) : u.lostByFlush = discarded u := by
  unfold LinkUnit.lostByFlush discarded survivors LinkUnit.isSending
  cases u.transmitter <;> cases u.outbound <;> simp

/-- Adoption touches the receiver, the gap timer and the adopted settings of one link unit (R147). -/
theorem adopt_eq (l : LinkNo) (s : State) : adopt l s = s.putLink l (adopted (s.settings l) (s.link l)) := by
  unfold adopt adopted
  by_cases same : (s.link l).baud = (s.settings l).baud ∧ (s.link l).gap = (s.settings l).gap
  · simp [same]
  · simp only [Bool.and_eq_true, decide_eq_true_eq, same, ↓reduceIte]

/-- An adoption leaves the settings of the profile adopted, and the queues, the counters and the transmitter as they were
(R147). -/
theorem adopted_fields (p : LinkSettings) (u : LinkUnit) :
    (adopted p u).baud = p.baud ∧ (adopted p u).gap = p.gap ∧ (adopted p u).outbound = u.outbound ∧
    (adopted p u).reserved = u.reserved ∧ (adopted p u).intake = u.intake ∧ (adopted p u).counters = u.counters ∧
    (adopted p u).transmitter = u.transmitter ∧ (adopted p u).inCharacter = u.inCharacter := by
  unfold adopted
  split <;> simp_all

/-- A flush keeps the survivors and one reservation, and adopts where it discards a SET_LINK's DONE (R156, R147). -/
theorem flush_eq (l : LinkNo) (s : State) :
    flush l s = s.putLink l
      (if (discarded (s.link l)).any (·.adopts) = true
       then adopted (s.settings l) { s.link l with outbound := survivors (s.link l), reserved := 1 }
       else { s.link l with outbound := survivors (s.link l), reserved := 1 }) := by
  unfold flush
  simp only [keptByFlush_eq, lostByFlush_eq, adopt_eq]
  split <;> simp

/-- The request kind a code names (Table 12-3). -/
theorem ofCode_eq_some_iff (c : Byte) (k : ReqKind) : ReqKind.ofCode c = some k ↔ k.code = c := by
  constructor
  · intro h
    simpa using List.find?_some h
  · rintro rfl
    cases k <;> decide

/-- A code that names no request kind is none of Table 12-3's. -/
theorem ofCode_eq_none_iff (c : Byte) : ReqKind.ofCode c = none ↔ c ∉ requestKindCodes := by
  have codes : requestKindCodes = ReqKind.every.map ReqKind.code := by decide
  rw [codes, ReqKind.ofCode, List.find?_eq_none]
  simp

end Sys2Proof.Machine
end

