-- ==== Sys2Proof/Laws/Time.lean ====
section
/-! SUPPORT. What the passing of time does, each said once: at a link unit, at the deadlines, and at the time base. -/

namespace Sys2Proof.Machine

open Sys2Proof.Safety

/-! ### Link units -/

theorem bump_eq (c : Byte) : bump c = raised c := by
  unfold bump raised
  by_cases h : c = 255
  · subst h; decide
  · have : c.toNat < 255 := by
      have := c.isLt
      have : c.toNat ≠ 255 := fun e => h (BitVec.eq_of_toNat_eq e)
      omega
    rw [if_neg h, if_pos this]

/-- A gap timer that runs out (R137). -/
theorem runOutGapTimer_eq (l : LinkNo) (s : State) :
    runOutGapTimer l s = s.putLink l { s.link l with
      receiver := .hunt, gapTimer := .stopped
      counters := { (s.link l).counters with gap := raised (s.link l).counters.gap } } := by
  simp [runOutGapTimer, abandonFrame, countFault, Counters.count, bump_eq]

/-- One period at a gap timer (R133, R137). -/
theorem runGapTimer_one_eq (l : LinkNo) (s : State) : runGapTimer l 1 s = s.putLink l (gapPassed (s.link l)) := by
  unfold runGapTimer gapPassed
  split
  · rename_i stopped; simp [stopped]
  · rename_i k running
    simp only [running]
    by_cases h : k + 1 < (s.link l).gap * (10 * bitPeriods (s.link l).baud)
    · have : ¬ (s.link l).gapPeriods ≤ k + 1 := by simpa [LinkUnit.gapPeriods, charPeriods] using h
      simp [h, this]
    · have : (s.link l).gapPeriods ≤ k + 1 := by simpa [LinkUnit.gapPeriods, charPeriods] using h
      simp [h, this, runOutGapTimer_eq]
  · rename_i low; simp [low]

/-- GAP_TIMER_EXPIRY runs the gap timer out, whether the line was low or high (R137). -/
theorem execGapTimerExpiry_eq (l : LinkNo) (s : State) (works : s.receives l = true)
    (started : (s.link l).gapTimer ≠ .stopped) : execGapTimerExpiry l s = .next (runOutGapTimer l s) := by
  have limit (k : Nat) : (s.link l).gapPeriods ≤ k + ((s.link l).gapPeriods - k) := by omega
  have again (t : State) (h : (t.link l).gapTimer = .stopped) (n : Nat) : runGapTimer l n t = t := by simp [runGapTimer, h]
  have out : ((runOutGapTimer l s).link l).gapTimer = .stopped := by simp [runOutGapTimer_eq]
  simp only [execGapTimerExpiry, works, ↓reduceIte]
  cases g : (s.link l).gapTimer with
  | stopped => exact absurd g started
  | running k => simp [lineReturned, g, runGapTimer, LinkUnit.gapLeft, limit]
  | lineLow k =>
    by_cases h : (s.link l).gapPeriods ≤ k
    · simp [lineReturned, g, h, again _ out]
    · have same : ({ s.link l with gapTimer := .running k } : LinkUnit).gapPeriods = (s.link l).gapPeriods := rfl
      simp [lineReturned, g, h, runGapTimer, LinkUnit.gapLeft, same, limit, runOutGapTimer_eq]

/-- One period at a transmitter (R144, R147). -/
theorem runTransmitter_one_eq (l : LinkNo) (s : State) :
    runTransmitter l 1 s = s.putLink l (bitPassed (s.settings l) (s.link l)) := by
  unfold runTransmitter bitPassed
  split
  · rename_i h; simp [h]
  · rename_i b c k h
    simp only [h, charPeriods]
    by_cases e : k + 1 < 10 * bitPeriods b
    · simp [e, Nat.not_le.mpr e]
    · simp [e, Nat.not_lt.mp e]
  · rename_i b cs k h
    simp only [h, charPeriods]
    by_cases e : k + 1 < cs.length * (10 * bitPeriods b)
    · simp [e, Nat.not_le.mpr e]
    · simp only [e, Nat.not_lt.mp e, ↓reduceIte]
      split
      · rename_i x rest o
        simp only [o, finishEntry]
        split <;> simp [adopt_eq]
      · rename_i o; simp [o]

/-- One period at a link unit. -/
theorem linkPeriod_eq (s : State) (l : LinkNo) :
    linkPeriod s l = s.putLink l (bitPassed (s.settings l) (gapPassed (s.link l))) := by
  unfold linkPeriod
  rw [runTransmitter_one_eq, runGapTimer_one_eq]
  simp

/-! ### Deadlines -/

/-- An armed deadline is overdue at an instant exactly when its latest moment lies before it (R127). -/
theorem overdue_some_iff (later d : Instant) : overdue later (some d) = true ↔ LatestPassed later d := by
  have zero : later.ms - (d.ms + 1) = 0 ↔ later.ms = d.ms + 1 := by
    constructor
    · intro h
      have := congrArg (· + (d.ms + 1)) h
      simpa [BitVec.sub_add_cancel] using this
    · intro h; simp [h]
  unfold overdue LatestPassed
  simp only [Bool.and_eq_true, decide_eq_true_eq, Bool.or_eq_true, ne_eq, zero]
  tauto

theorem overdue_none (later : Instant) : overdue later none = false := rfl

/-- The armed deadlines, place by place (Table 8-1). -/
theorem forall_armed_iff (s : State) (P : Instant → Prop) :
    (∀ c d, Armed s c d → P d) ↔
      (∀ l d, (s.session l).leaseDeadline = some d → P d) ∧
      (∀ i d, (s.record i).state.waitDeadline = some d → P d) ∧
      (∀ i d, (s.record i).state.holdDeadline = some d → P d) ∧
      (∀ g, ∀ a ∈ (s.group g).arrivals, ∀ d, a.due = some d → P d) := by
  constructor
  · intro h
    refine ⟨fun l d e => ?_, fun i d e => ?_, fun i d e => ?_, fun g a mem d e => ?_⟩
    · unfold Session.leaseDeadline at e
      split at e
      · rename_i x; cases e; exact h _ _ (.lease _ _ _ x)
      all_goals cases e
    · unfold RecState.waitDeadline at e
      split at e
      · rename_i x; subst e; exact h _ _ (.lockWait _ _ _ _ _ _ _ x)
      · rename_i x; subst e; exact h _ _ (.convertWait _ _ _ _ _ _ _ x)
      · rename_i x; subst e; exact h _ _ (.watchWait _ _ _ _ _ x)
      all_goals cases e
    · unfold RecState.holdDeadline at e
      split at e
      · rename_i x y
        obtain ⟨z, rfl, rfl⟩ := Option.map_eq_some_iff.1 e
        exact h _ _ (.held _ _ _ _ _ _ y)
      · rename_i x y
        obtain ⟨z, rfl, rfl⟩ := Option.map_eq_some_iff.1 e
        exact h _ _ (.converting _ _ _ _ _ _ _ y)
      all_goals cases e
    · obtain ⟨l, tag, due⟩ := a
      cases e
      exact h _ _ (.arrival g l tag d mem)
  · rintro ⟨lease, wait, hold, arrival⟩ c d a
    cases a with
    | lease l _ _ x => exact lease l d (by simp [Session.leaseDeadline, x])
    | lockWait i _ _ _ _ _ _ x => exact wait i d (by simp [RecState.waitDeadline, x])
    | convertWait i _ _ _ _ _ _ x => exact wait i d (by simp [RecState.waitDeadline, x])
    | watchWait i _ _ _ _ x => exact wait i d (by simp [RecState.waitDeadline, x])
    | held i _ _ _ _ _ x => exact hold i _ (by simp [RecState.holdDeadline, x])
    | converting i _ _ _ _ _ _ x => exact hold i _ (by simp [RecState.holdDeadline, x])
    | arrival g _ _ _ mem => exact arrival g _ mem d rfl

/-- Nothing is overdue, place by place. -/
theorem nothingOverdue_iff (later : Instant) (s : State) :
    NothingOverdue later s ↔
      (∀ l, overdue later (s.session l).leaseDeadline = false) ∧
      (∀ i, overdue later (s.record i).state.waitDeadline = false) ∧
      (∀ i, overdue later (s.record i).state.holdDeadline = false) ∧
      (∀ g, ∀ a ∈ (s.group g).arrivals, overdue later a.due = false) := by
  have place (o : Option Instant) : overdue later o = false ↔ ∀ d, o = some d → ¬ LatestPassed later d := by
    cases o with
    | none => simp [overdue_none]
    | some d => rw [Bool.eq_false_iff, ne_eq, overdue_some_iff]; simp
  unfold NothingOverdue
  simp only [forall_armed_iff s (fun d => ¬ LatestPassed later d), place]

/-- A fold that leaves its start at every entry leaves it. -/
theorem foldl_eq_self {α β : Type} (f : β → α → β) (xs : List α) (b : β) (h : ∀ x ∈ xs, f b x = b) : xs.foldl f b = b := by
  induction xs with
  | nil => rfl
  | cons x rest ih =>
    rw [List.foldl_cons, h x (by simp)]
    exact ih fun y hy => h y (by simp [hy])

/-- Nothing is delivered where nothing is overdue. -/
theorem deliverOverdue_eq_self (later : Instant) (s : State) (h : NothingOverdue later s) :
    deliverOverdue later s = s := by
  obtain ⟨lease, wait, hold, arrival⟩ := (nothingOverdue_iff later s).1 h
  have leases : deliverLeases later s = s := foldl_eq_self _ _ _ fun l _ => by simp [lease l]
  have waits : deliverWaits later s = s := foldl_eq_self _ _ _ fun i _ => by simp [wait i]
  have holds : deliverHolds later s = s := foldl_eq_self _ _ _ fun i _ => by simp [hold i]
  have arrivals : deliverArrivals later s = s := foldl_eq_self _ _ _ fun g _ => by
    have : (s.group g).arrivals.find? (fun a => overdue later a.due) = none := by
      rw [List.find?_eq_none]
      intro a mem
      simp [arrival g a mem]
    simp [this]
  simp [deliverOverdue, leases, waits, holds, arrivals]

end Sys2Proof.Machine
end

