-- ==== Sys2Proof/Laws/Invariants.lean ====
section
/-! SUPPORT. The invariants of Safety.lean, each in a form that a case analysis over the records decides. -/

namespace Sys2Proof.Machine

open Sys2Proof.Safety

/-- The match that `mayStandTogether` makes, as a test on two records in use as holdings. -/
def compatible (x y : RecState) : Bool :=
  match x, y with
  | .held _ _ m _ _, .held _ _ n _ _ => m = .shared && n = .shared
  | .held _ _ m _ _, .converting .. => m = .shared
  | .converting .., .held _ _ n _ _ => n = .shared
  | .converting .., .converting .. => false
  | .free, _ | .waiting .., _ | .watching .., _ => true
  | _, .free | _, .waiting .. | _, .watching .. => true

/-- The test is the rule (R41). -/
theorem compatible_iff (x y : RecState) : compatible x y = true ↔ mayStandTogether x y := by
  cases x <;> cases y <;> simp [compatible, mayStandTogether]

/-- R41 record by record: each holding against every other. -/
theorem holdingsCompatible_iff (s : State) :
    HoldingsCompatible s ↔
      ∀ i, (match holdingBlock (s.record i).state with
        | none => true
        | some b => decide (∀ j, j = i ∨ (match holdingBlock (s.record j).state with
          | none => true
          | some c => !b.overlaps c || compatible (s.record i).state (s.record j).state) = true)) = true := by
  unfold HoldingsCompatible
  constructor
  · intro h i
    split
    · rfl
    · rename_i b hb
      refine decide_eq_true_iff.2 fun j => ?_
      by_cases e : j = i
      · exact Or.inl e
      · right
        split
        · rfl
        · rename_i c hc
          cases o : b.overlaps c
          · rfl
          · simpa using (compatible_iff _ _).2 (h i j (Ne.symm e) b c hb hc o)
  · intro h i j ne b c hb hc o
    have hi := h i
    rw [hb] at hi
    rcases decide_eq_true_iff.1 hi j with e | hj
    · exact absurd e.symm ne
    · rw [hc] at hj
      simp only [o, Bool.not_true, Bool.false_or] at hj
      exact (compatible_iff _ _).1 hj

/-- R16 and R30 record by record. -/
theorem tokensSound_iff (s : State) :
    TokensSound s ↔
      ∀ i, (match (s.record i).state.token with
        | none => true
        | some t => decide (1 ≤ t.toNat ∧ t.toNat ≤ s.tokens.toNat ∧
            ∀ j, (s.record j).state.token = some t → i = j)) = true := by
  unfold TokensSound
  constructor
  · rintro ⟨range, unique⟩ i
    split
    · rfl
    · rename_i t ht
      exact decide_eq_true_iff.2 ⟨(range i t ht).1, (range i t ht).2, fun j hj => unique i j t ht hj⟩
  · intro h
    constructor
    · intro i t ht
      have hi := h i
      rw [ht] at hi
      have := decide_eq_true_iff.1 hi
      exact ⟨this.1, this.2.1⟩
    · intro i j t ht hj
      have hi := h i
      rw [ht] at hi
      exact (decide_eq_true_iff.1 hi).2.2 j hj

/-- R2 record by record. -/
theorem blocksWellFormed_iff (s : State) :
    BlocksWellFormed s ↔
      ∀ i, (match recordBlock (s.record i).state with
        | none => true
        | some b => b.wellFormed) = true := by
  unfold BlocksWellFormed
  refine forall_congr' fun i => ?_
  cases recordBlock (s.record i).state <;> simp

/-- R108 record by record. -/
theorem ownersOpen_iff (s : State) :
    OwnersOpen s ↔
      ∀ i, (match (s.record i).state.owner with
        | none => true
        | some l => (s.session l).isOpen) = true := by
  unfold OwnersOpen
  refine forall_congr' fun i => ?_
  cases (s.record i).state.owner <;> simp

/-- What an open tag names, as the reference that the record's own state gives or as an entry of the list (R119). -/
theorem tagNames_iff (s : State) (l : LinkNo) (x : OpenTag) :
    tagNames s l x ↔
      match x.ref with
      | .lockWait i | .convert i | .watch i => waitsUnder i (s.record i).state = some (l, x)
      | .arrival g => ∃ a ∈ (s.group g).arrivals, a.link = l ∧ a.tag = x.tag := by
  obtain ⟨tag, ref⟩ := x
  cases ref with
  | lockWait i =>
    simp only [tagNames]
    cases h : (s.record i).state <;> simp [waitsUnder]
  | convert i =>
    simp only [tagNames]
    cases h : (s.record i).state <;> simp [waitsUnder]
  | watch i =>
    simp only [tagNames]
    cases h : (s.record i).state <;> simp [waitsUnder]
  | arrival g =>
    simp only [tagNames]
    constructor
    · rintro ⟨d, h⟩; exact ⟨_, h, rfl, rfl⟩
    · rintro ⟨⟨l', t', d⟩, h, rfl, rfl⟩; exact ⟨d, h⟩

/-- The test that an open tag names what R119 says. -/
def tagNamesTest (s : State) (l : LinkNo) (x : OpenTag) : Bool :=
  match x.ref with
  | .lockWait i | .convert i | .watch i => waitsUnder i (s.record i).state = some (l, x)
  | .arrival g => (s.group g).arrivals.any fun a => a.link = l && a.tag = x.tag

/-- The test is the rule (R119). -/
theorem tagNamesTest_iff (s : State) (l : LinkNo) (x : OpenTag) : tagNamesTest s l x = true ↔ tagNames s l x := by
  rw [tagNames_iff]
  unfold tagNamesTest
  split <;> simp

/-- R119 tag by tag and record by record. -/
theorem tagsMatch_iff (s : State) :
    TagsMatch s ↔
      (∀ l, ((s.session l).tags.map (·.tag)).Nodup ∧ (s.session l).tags.length ≤ 16) ∧
      (∀ l, ∀ x ∈ (s.session l).tags, x.tag ≠ 0 ∧ tagNamesTest s l x = true ∧ (s.session l).isOpen = true) ∧
      (∀ i, (match waitsUnder i (s.record i).state with
        | none => true
        | some (l, x) => (s.session l).tags.contains x) = true) ∧
      (∀ g, ∀ a ∈ (s.group g).arrivals, ({ tag := a.tag, ref := .arrival g } : OpenTag) ∈ (s.session a.link).tags) := by
  have second : (∀ i l x, waitsUnder i (s.record i).state = some (l, x) → x ∈ (s.session l).tags) ↔
      (∀ i, (match waitsUnder i (s.record i).state with
        | none => true
        | some (l, x) => (s.session l).tags.contains x) = true) := by
    refine forall_congr' fun i => ?_
    cases h : waitsUnder i (s.record i).state with
    | none => simp
    | some p => obtain ⟨l, x⟩ := p; simp
  unfold TagsMatch
  rw [second]
  simp only [tagNamesTest_iff]

/-- R50 record by record, the wait list by place. -/
theorem nothingUnblocked_iff (s : State) :
    NothingUnblocked s ↔
      (∀ i, (match (s.record i).state with
        | .watching _ b _ _ => s.heldOver b
        | .converting _ b _ _ _ _ => s.tokensSpent || s.otherHeldOver i b
        | .free | .waiting .. | .held .. => true) = true) ∧
      (s.tokensSpent = true ∨ ∀ k : Fin s.waitList.length,
        (match (s.record s.waitList[k]).state with
        | .waiting _ b m _ _ _ => s.heldAgainst b m || s.earlierAgainst (s.waitList.take k) b m
        | .free | .held .. | .converting .. | .watching .. => true) = true) := by
  unfold NothingUnblocked
  constructor
  · rintro ⟨watch, rest⟩
    constructor
    · intro i
      split
      · rename_i h; exact watch i _ _ _ _ h
      · rename_i h
        by_cases spent : s.tokensSpent = true
        · simp [spent]
        · simpa [spent] using (rest (by simpa using spent)).1 i _ _ _ _ _ _ h
      all_goals rfl
    · by_cases spent : s.tokensSpent = true
      · exact Or.inl spent
      · right
        intro k
        split
        · rename_i h
          rw [Bool.or_eq_true]
          refine (rest (by simpa using spent)).2 (s.waitList.take k) s.waitList[k] (s.waitList.drop (k + 1)) _ _ _ _ _ _ ?_ h
          simp
        all_goals rfl
  · rintro ⟨byRecord, byPlace⟩
    refine ⟨fun i o b t d h => ?_, fun spent => ⟨fun i o b t g d x h => ?_, fun before i after o b m t d x e h => ?_⟩⟩
    · have := byRecord i; rw [h] at this; exact this
    · have := byRecord i; rw [h] at this
      simpa [spent] using this
    · rcases byPlace with bad | ok
      · rw [spent] at bad; cases bad
      · have place : before.length < s.waitList.length := by rw [e]; simp
        have at_ := ok ⟨before.length, place⟩
        have here : s.waitList[before.length] = i := by simp [e]
        have cut : s.waitList.take before.length = before := by simp [e]
        simp only [Fin.getElem_fin] at at_
        rw [here, h] at at_
        simpa [cut] using at_

/-- A deadline that is armed is not past its latest moment (R127). -/
def inTimeTest (s : State) : Option Instant → Bool
  | none => true
  | some d => decide ((d.ms + 1 - s.uptime).toNat ≤ 65536) && (decide (s.uptime ≠ d.ms + 1) || decide (s.clkin ≤ d.sub))

theorem inTimeTest_iff (s : State) (o : Option Instant) : inTimeTest s o = true ↔ ∀ d, o = some d → InTime s d := by
  cases o with
  | none => simp [inTimeTest]
  | some d =>
    simp only [Option.some.injEq, forall_eq', InTime, inTimeTest, Bool.and_eq_true, Bool.or_eq_true, decide_eq_true_eq]
    rw [← Decidable.imp_iff_not_or]

/-- R127 place by place. -/
theorem deadlinesInTime_iff (s : State) :
    DeadlinesInTime s ↔
      (∀ l, (s.settings l).lease ≤ 65535) ∧
      (∀ i, (match (s.record i).state with
        | .waiting _ _ _ _ _ (some h) => decide (h ≤ 65535)
        | .waiting _ _ _ _ _ none | .free | .held .. | .converting .. | .watching .. => true) = true) ∧
      (∀ l, inTimeTest s (s.session l).leaseDeadline = true) ∧
      (∀ i, inTimeTest s (s.record i).state.waitDeadline = true) ∧
      (∀ i, inTimeTest s (s.record i).state.holdDeadline = true) ∧
      (∀ g, ∀ a ∈ (s.group g).arrivals, inTimeTest s a.due = true) := by
  have limits : (∀ i o b m g d h, (s.record i).state = .waiting o b m g d (some h) → h ≤ 65535) ↔
      ∀ i, (match (s.record i).state with
        | .waiting _ _ _ _ _ (some h) => decide (h ≤ 65535)
        | .waiting _ _ _ _ _ none | .free | .held .. | .converting .. | .watching .. => true) = true := by
    refine forall_congr' fun i => ⟨fun h => ?_, fun h o b m g d x e => ?_⟩
    · split
      · rename_i e; exact decide_eq_true (h _ _ _ _ _ _ e)
      all_goals rfl
    · rw [e] at h; exact of_decide_eq_true h
  unfold DeadlinesInTime
  rw [limits, forall_armed_iff s (InTime s)]
  simp only [inTimeTest_iff]

end Sys2Proof.Machine
end

