-- ==== Sys2Proof/Laws/Operands.lean ====
section
/-! SUPPORT. The codes and numbers of a body's fields, and the tests on them, as the propositions that the spec's rules state. -/

namespace Sys2Proof.Machine

open Sys2Proof.Safety

/-- A mode code of 0 or 1 names a mode (Table 12-1). -/
theorem Mode.ofCode_isSome (c : Byte) (h : c.toNat ≤ 1) : ∃ m, Mode.ofCode c = some m := by
  have : c = 0 ∨ c = 1 := by bv_omega
  rcases this with rfl | rfl <;> exact ⟨_, rfl⟩

/-- Any other names none. -/
theorem Mode.ofCode_eq_none (c : Byte) (h : 1 < c.toNat) : Mode.ofCode c = none := by
  have h0 : c ≠ 0 := by bv_omega
  have h1 : c ≠ 1 := by bv_omega
  simp only [Mode.ofCode]
  rw [if_neg h0, if_neg h1]

/-- A link number above 5 names no link. -/
theorem linkOf_isNone_iff (n : Byte) : (linkOf n).isNone = true ↔ 5 < n.toNat := by
  unfold linkOf; split <;> simp <;> omega

/-- A link number names its link. -/
theorem linkOf_eq_some_iff (n : Byte) (l : LinkNo) : linkOf n = some l ↔ n.toNat = l.val := by
  unfold linkOf; split
  · simp [Fin.ext_iff]
  · have := l.isLt; simp; omega

/-- A group number above 7 names no group. -/
theorem groupOf_isNone_iff (n : Byte) : (groupOf n).isNone = true ↔ 7 < n.toNat := by
  unfold groupOf; split <;> simp <;> omega

/-- A group number names its group. -/
theorem groupOf_eq_some_iff (n : Byte) (g : GroupNo) : groupOf n = some g ↔ n.toNat = g.val := by
  unfold groupOf; split
  · simp [Fin.ext_iff]
  · have := g.isLt; simp; omega

/-- A window index above 3 names no window. -/
theorem windowOf_isNone_iff (n : Byte) : (windowOf n).isNone = true ↔ 3 < n.toNat := by
  unfold windowOf; split <;> simp <;> omega

/-- A window index names its window. -/
theorem windowOf_eq_some_iff (n : Byte) (k : WindowNo) : windowOf n = some k ↔ n.toNat = k.val := by
  unfold windowOf; split
  · simp [Fin.ext_iff]
  · have := k.isLt; simp; omega

/-- An access code above 2 names no level (Table 12-1). -/
theorem Access.ofCode_isNone_iff (n : Byte) : (Access.ofCode n).isNone = true ↔ 2 < n.toNat := by
  unfold Access.ofCode
  by_cases h0 : n = 0
  · subst h0; simp
  by_cases h1 : n = 1
  · subst h1; simp
  by_cases h2 : n = 2
  · subst h2; simp
  rw [if_neg h0, if_neg h1, if_neg h2]; simp; bv_omega

/-- A group mode code above 1 names no mode (Table 12-1). -/
theorem GroupMode.ofCode_isNone_iff (n : Byte) : (GroupMode.ofCode n).isNone = true ↔ 1 < n.toNat := by
  unfold GroupMode.ofCode
  by_cases h0 : n = 0
  · subst h0; simp
  by_cases h1 : n = 1
  · subst h1; simp
  rw [if_neg h0, if_neg h1]; simp; bv_omega

/-- A member set byte has a bit above link 5 exactly when it is 64 or more (R164). -/
theorem highMember_iff (n : Byte) : (n.getLsbD 6 || n.getLsbD 7) = true ↔ 64 ≤ n.toNat := by
  revert n; decide +kernel

/-- A list of tests whose outcomes are the conditions stops at the field that the conditions name. -/
theorem firstFailure_of_firstFails (tests : List (Bool × Byte)) (conditions : List (Prop × Byte)) (f : Byte)
    (agree : List.Forall₂ (fun a b => (a.1 = true ↔ b.1) ∧ a.2 = b.2) tests conditions) :
    FirstFails conditions f → firstFailure tests = some f := by
  induction agree with
  | nil => intro x; cases x
  | @cons a b _ _ ab _ ih =>
    obtain ⟨x, n⟩ := a
    obtain ⟨p, m⟩ := b
    obtain ⟨e, rfl⟩ := ab
    rintro (⟨hp, rfl⟩ | ⟨hp, r⟩)
    · have : x = true := e.2 hp
      simp [firstFailure, this]
    · have : x = false := by
        cases x
        · rfl
        · exact absurd (e.1 rfl) hp
      simp [firstFailure, this, ih r]

/-- An exponent above 24 (R10 step 1). -/
theorem blockFault_exponent (b : Block) (h : 24 < b.exp) : blockFault b = some (.badBlock, 2) := by
  simp [blockFault, firstFailure, Config.maxExponent, h]

/-- A base that is no multiple of the size (R10 step 2). -/
theorem blockFault_alignment (b : Block) (h : b.exp ≤ 24) (h2 : ¬ 2 ^ b.exp ∣ b.base) :
    blockFault b = some (.badBlock, 1) := by
  rw [Nat.dvd_iff_mod_eq_zero] at h2
  have : ¬ Config.maxExponent < b.exp := by show ¬ 24 < b.exp; omega
  simp [blockFault, firstFailure, this, h2]

/-- No window is found (R10 step 5). -/
theorem findWindow_eq_none (s : State) (l : LinkNo) (b : Block) (h : ∀ w, ¬ FirstWindow s l b w) :
    findWindow (s.windows l) b = none := by
  cases e : findWindow (s.windows l) b with
  | none => rfl
  | some w => exact absurd ((findWindow_eq_some_iff s l b w).1 e) (h w)

/-- No FREE record (R29 step 2). -/
theorem lowestFree_eq_none (s : State) (h : ∀ i, (s.record i).state ≠ .free) : s.lowestFree = none := by
  cases e : s.lowestFree with
  | none => rfl
  | some i => exact absurd ((lowestFree_eq_some_iff s i).1 e).1 (h i)

/-- Some FREE record. -/
theorem lowestFree_isSome (s : State) (i : RecNo) (h : (s.record i).state = .free) : ∃ j, s.lowestFree = some j := by
  cases e : s.lowestFree with
  | some j => exact ⟨j, rfl⟩
  | none =>
    unfold State.lowestFree at e
    rw [List.find?_eq_none] at e
    exact absurd h (by simpa using e i (by simp))

/-- A claim that conflicts with no record (R35). -/
theorem claimConflicts_eq_false (s : State) (b : Block) (m : Mode) (h : ∀ j, ¬ ConflictsWith s j b m) :
    s.claimConflicts b m = false := by
  cases e : s.claimConflicts b m with
  | false => rfl
  | true => obtain ⟨j, hj⟩ := (claimConflicts_iff s b m).1 e; exact absurd hj (h j)

/-- A handle that fails R22's test. -/
theorem named_eq_none (s : State) (l : LinkNo) (handle : Nat) (h : ∀ i, ¬ ValidHandle s l handle i) :
    s.named l handle = none := by
  cases e : s.named l handle with
  | none => rfl
  | some i => exact absurd ((named_eq_some_iff s l handle i).1 e) (h i)

end Sys2Proof.Machine
end

