-- ==== Sys2Proof/Tests/Slice0.lean ====
section
/-! SUPPORT. Tests of the model against the spec's worked examples, and a witness for each statement that has hypotheses. -/

namespace Sys2Proof.Tests

set_option Elab.async false

open Sys2Proof.Machine Sys2Proof.Safety

/-! ### Small states and bodies -/

/-- The part in SERVICE at epoch 1 with OPEN sessions on these links, each with its session reservation. -/
def inService (opens : List LinkNo) : State :=
  { State.reset with
    service := .service
    epoch := 1
    sessions := Vector.ofFn fun l =>
      if l ∈ opens then { state := .opened { ms := 5000, sub := 0 } 1, tags := [], owned := 0 } else Session.atReset
    links := Vector.ofFn fun l => if l ∈ opens then { LinkUnit.atReset with reserved := 1 } else LinkUnit.atReset }

/-- The frame of a request alone in the link's intake queue. -/
def request (l : LinkNo) (k : ReqKind) (tag : Byte) (body : List Byte) (s : State) : State :=
  s.putLink l { s.link l with intake := [{ kind := k.code, tag := tag, body := body }] }

/-- The state once the dispatcher has taken the request. -/
def taken (l : LinkNo) (k : ReqKind) (tag : Byte) (body : List Byte) (s : State) : State :=
  (take l { kind := k.code, tag := tag, body := body } s).getD s

/-- The state a command leaves. -/
def after (c : Instr) (s : State) : State :=
  match exec c s with
  | .next t => t
  | .fault _ | .refused _ => s

/-- What stands in the outbound queue of a link, as tags and messages. -/
def queued (s : State) (l : LinkNo) : List (Byte × Message) := (s.link l).outbound.map fun e => (e.tag, e.msg)

/-- A record taken for a link, its list and reservations left to the caller. -/
def withRecord (i : RecNo) (l : LinkNo) (x : RecState) (s : State) : State := allocate i l x s

def blockA : Block := { base := 0x100, exp := 8 }
def blockB : Block := { base := 0x140, exp := 6 }
def blockC : Block := { base := 0x180, exp := 6 }
def blockD : Block := { base := 0x200, exp := 8 }

/-- Key and exponent of a block. -/
def key (b : Block) : List Byte := toBytes 3 b.base ++ toBytes 1 b.exp

/-- An ACQUIRE's body. -/
def acquireBody (b : Block) (mode wait hold : Nat) : List Byte :=
  key b ++ toBytes 1 mode ++ toBytes 2 wait ++ toBytes 2 hold

/-- A CONVERT's body. -/
def convertBody (handle mode wait : Nat) : List Byte := toBytes 2 handle ++ toBytes 1 mode ++ toBytes 2 wait

/-- A WATCH's body. -/
def watchBody (b : Block) (wait : Nat) : List Byte := key b ++ toBytes 2 wait

/-- An ARRIVE's body. -/
def arriveBody (group wait : Nat) : List Byte := toBytes 1 group ++ toBytes 2 wait

/-- A SET_WINDOW's body. -/
def windowBody (l i base exp global access : Nat) : List Byte :=
  toBytes 1 l ++ toBytes 1 i ++ toBytes 3 base ++ toBytes 1 exp ++ toBytes 3 global ++ toBytes 1 access

/-- A SET_LINK's body. -/
def linkBody (l enabled baud gap lease quota weight : Nat) : List Byte :=
  toBytes 1 l ++ toBytes 1 enabled ++ toBytes 1 baud ++ toBytes 1 gap ++ toBytes 2 lease ++ toBytes 1 quota ++
    toBytes 1 weight

/-- Section 13.1 after step 2: record 0 HELD B SHARED by host 1, record 1 WAITING A EXCLUSIVE for host 2 with hold limit
5000. -/
def nested : State :=
  let s := { inService [1, 2, 3] with tokens := 1, waitList := [1] }
  let s := withRecord 0 1 (.held 1 blockB .shared 1 none) s
  reserve 2 (openTag 2 1 (.lockWait 1) (withRecord 1 2 (.waiting 2 blockA .exclusive 1 none (some 5000)) s))

/-- Section 13.2 at the start: hosts 4 and 5 share D with tokens 19 and 20. -/
def sharers : State :=
  withRecord 1 5 (.held 5 blockD .shared 20 none)
    (withRecord 0 4 (.held 4 blockD .shared 19 none) { inService [0, 4, 5] with tokens := 20 })

/-- Section 13.2 after step 1: record 0 CONVERTING under tag 7. -/
def converter : State :=
  openTag 4 7 (.convert 0)
    (sharers.putState 0 (.converting 4 blockD 19 7 (some { ms := 3000, sub := 0 }) none))

/-- Section 5.5 at the start. -/
def watched : State :=
  let s := { inService [0, 1, 2, 3, 4] with tokens := 13, waitList := [2, 3] }
  let s := withRecord 0 0 (.held 0 blockC .exclusive 12 none) s
  let s := withRecord 1 1 (.held 1 blockB .shared 13 none) s
  let s := openTag 2 50 (.lockWait 2) (withRecord 2 2 (.waiting 2 blockA .exclusive 50 none none) s)
  openTag 3 60 (.lockWait 3) (withRecord 3 3 (.waiting 3 blockB .exclusive 60 none none) s)

/-- Section 5.5 with host 4's watch on C, due at uptime 5000. -/
def watching : State :=
  let s := withRecord 4 4 (.watching 4 blockC 70 (some { ms := 5000, sub := 0 })) { watched with watchList := [4] }
  openTag 4 70 (.watch 4) s

/-- Section 4.6 after step 3: record 0 HELD A EXCLUSIVE with a hold limit due at uptime 52000. -/
def limited : State :=
  let s := { inService [1, 2, 3] with tokens := 5, waitList := [2], uptime := 52000 }
  let s := reserve 1 (withRecord 0 1
    (.held 1 blockA .exclusive 5 (some { limit := 10000, due := { ms := 52000, sub := 0 } })) s)
  openTag 3 40 (.lockWait 2) (withRecord 2 3 (.waiting 3 blockB .exclusive 40 none none) s)

/-- Section 6.7: group 2 in mode ALL over links 1 to 4, group 5 in mode QUORUM of 2 over links 0 to 3. -/
def groups : State :=
  let s := inService [0, 1, 2, 3]
  { s with profile := { s.profile with
      groups := (s.profile.groups.set 2 { members := 0b11110, mode := .all, k := 1 }).set 5
        { members := 0b1111, mode := .quorum, k := 2 } } }

/-- Section 6.7 after step 10: hosts 2 and 3 stand in group 2's list at generation 1. -/
def gathering : State :=
  openTag 3 52 (.arrival 2) (openTag 2 41 (.arrival 2) (groups.putGroup 2
    { generation := 1
      arrivals := [{ link := 2, tag := 41, due := some { ms := 1000, sub := 0 } }, { link := 3, tag := 52, due := none }] }))

/-- Section 6.7 after step 7: host 0 stands in group 5's list. -/
def quorum : State :=
  openTag 0 60 (.arrival 5) (groups.putGroup 5
    { generation := 0, arrivals := [{ link := 0, tag := 60, due := some { ms := 2000, sub := 0 } }] })

/-- Section 13.3 at the start, X being the keys 0 to 15 and Y the keys 64 to 79; uptime at host 2's lease. -/
def lapsing : State :=
  let x : Block := { base := 0, exp := 4 }
  let y : Block := { base := 64, exp := 4 }
  let s := { inService [1, 2, 3, 4] with tokens := 40, waitList := [1, 3, 4], uptime := 5000 }
  let s := { s with profile := { s.profile with groups := s.profile.groups.set 0 { members := 0b1110, mode := .all, k := 1 } } }
  let s := s.putGroup 0 { generation := 4, arrivals := [{ link := 1, tag := 4, due := none }, { link := 2, tag := 6, due := none }] }
  let s := reserve 2 (withRecord 0 2 (.held 2 x .exclusive 38 (some { limit := 9000, due := { ms := 9000, sub := 0 } })) s)
  let s := openTag 2 5 (.lockWait 1) (withRecord 1 2 (.waiting 2 y .exclusive 5 none none) s)
  let s := openTag 1 4 (.arrival 0) (openTag 2 6 (.arrival 0) s)
  let s := withRecord 2 3 (.held 3 y .shared 40 none) s
  let s := openTag 4 9 (.lockWait 3) (withRecord 3 4 (.waiting 4 x .shared 9 none none) s)
  openTag 1 3 (.lockWait 4) (withRecord 4 1 (.waiting 1 y .shared 3 none none) s)

/-- The same with a message of link 2 in transmission and one behind it. -/
def lapsingSending : State :=
  let e : OutEntry := { tag := 1, msg := .doneEmpty, adopts := false }
  lapsing.putLink 2 { lapsing.link 2 with outbound := [e, e], transmitter := .sending 4 e.chars 0 }

/-- SETUP with link 0 as the management link. -/
def setup : State := State.reset

/-- Link 5 of section 9.8 with this receiver. -/
def receiving (r : Receiver) : State :=
  let s := inService [5]
  s.putLink 5 { s.link 5 with receiver := r, gapTimer := if r = .hunt then .stopped else .running 0 }

/-! ### WellFormed refuses an ill-formed command for each check -/

theorem test_wellFormed_body_of_56 : (Instr.query 0 1 (List.replicate 56 0)).wellFormed = true := by decide
theorem test_wellFormed_body_of_57_refused : (Instr.query 0 1 (List.replicate 57 0)).wellFormed = false := by decide
theorem test_wellFormed_unknown_body_refused : (Instr.unknownKindFrame 0 0x7F 1 (List.replicate 57 0)).wellFormed = false := by
  decide
theorem test_wellFormed_unknown_kind : (Instr.unknownKindFrame 0 0x16 1 []).wellFormed = true := by decide
theorem test_wellFormed_request_kind_refused : (Instr.unknownKindFrame 0 0x15 1 []).wellFormed = false := by decide
theorem test_wellFormed_good_length_refused :
    (Instr.lengthFault 0 2).wellFormed = false ∧ (Instr.lengthFault 0 58).wellFormed = false := by decide
theorem test_wellFormed_bad_length :
    (Instr.lengthFault 0 1).wellFormed = true ∧ (Instr.lengthFault 0 59).wellFormed = true := by decide

/-! ### No word spells a command; fields, messages and blocks -/

theorem test_decode_none : decodeTableWord 8 0 = none ∧ decodeTableWord 32 0x10 = none := by decide

/-- Table 12-4: the mode of ACQUIRE begins at offset 4; the lease period of SET_LINK occupies offsets 4 and 5. -/
theorem test_fields :
    (AcquireReq.ofBody [0, 1, 0x40, 6, 1, 0, 2, 0, 3]).mode = 1 ∧
    AcquireReq.ofBody [0, 1, 0x40, 6, 1, 0, 2, 0, 3] = { block := blockB, mode := 1, wait := 2, hold := 3 } ∧
    (SetLinkReq.ofBody [0, 1, 2, 3, 0x13, 0x88, 6, 7]).lease = 5000 := by decide

/-- R139 by hand over the bytes of a RENEW with tag 1. -/
theorem test_check_of_renew : frameChars 0x03 1 [] = [0xA5, 2, 3, 1, 0xE7, 0x8E] := by decide +kernel

/-- R139's own figure: the nine bytes 0x31 to 0x39 give 0x29B1. -/
theorem test_check_of_nine_bytes : checkOf [0x31, 0x32, 0x33, 0x34, 0x35, 0x36, 0x37, 0x38, 0x39] = 0x29B1 := by
  decide +kernel

/-- R134: 0xA5 as a low start bit, 1 0 1 0 0 1 0 1, a high stop bit. -/
theorem test_character_bits :
    characterBits 0xA5 = [false, true, false, true, false, false, true, false, true, true] := by decide

/-- Table 9-1: code 4 is 115,200 bit/s, 160 periods of CLKIN; code 7 is 1,152,000 bit/s. -/
theorem test_bit_periods : bitPeriods 4 = 160 ∧ bitPeriods 7 = 16 ∧ bitPeriods 0 = 1920 := by decide

/-- Table 12-5: DONE of a holding with handle 128, token 3, EXCLUSIVE. -/
theorem test_message_body : (Message.doneHolding 128 3 .exclusive).body = [0, 128, 0, 0, 0, 3, 1] := by decide +kernel

/-- Figure 1-1: A contains B and C, which lie apart; D lies apart from A. -/
theorem test_overlaps :
    blockA.overlaps blockB = true ∧ blockC.overlaps blockA = true ∧ blockB.overlaps blockC = false ∧
    blockA.overlaps blockD = false := by decide

/-- Table 1-6: the windows of link 3. -/
def table1_6 : Vector Window 4 :=
  #v[{ localBase := 0, exp := 12, globalBase := 0x4A0000, access := .full },
     { localBase := 0x1000, exp := 12, globalBase := 0x4A0000, access := .sharedOnly },
     { localBase := 0x100000, exp := 20, globalBase := 0x300000, access := .full },
     { localBase := 0, exp := 0, globalBase := 0, access := .noAccess }]

/-- Table 1-7, line by line. -/
theorem test_table1_7 :
    let s := { setup with profile := { setup.profile with windows := setup.profile.windows.set 3 table1_6 } }
    admitAcquire 3 { base := 0x400, exp := 8 } 1 s = .ok ({ base := 0x4A0400, exp := 8 }, .exclusive) ∧
    admitAcquire 3 { base := 0x1400, exp := 8 } 1 s = .error (.access, 3) ∧
    admitAcquire 3 { base := 0x1400, exp := 8 } 0 s = .ok ({ base := 0x4A0400, exp := 8 }, .shared) ∧
    admitAcquire 3 { base := 0x300, exp := 9 } 0 s = .error (.badBlock, 1) ∧
    admitAcquire 3 { base := 0, exp := 25 } 1 s = .error (.badBlock, 2) ∧
    admitAcquire 3 { base := 0, exp := 24 } 1 s = .error (.outOfWindow, 0) ∧
    admitBlock 3 { base := 0, exp := 13 } s = .error (.outOfWindow, 0) ∧
    admitBlock 3 { base := 0x180000, exp := 16 } s = .ok { base := 0x380000, exp := 16 } ∧
    admitBlock 3 { base := 0x1800, exp := 11 } s = .ok { base := 0x4A0800, exp := 11 } := by
  refine ⟨?_, ?_, ?_, ?_, ?_, ?_, ?_, ?_, ?_⟩ <;> rfl

/-! ### Resets and time -/

/-- R158: MSEL 6 leaves no management link and starts service; R160: epoch 1. -/
theorem test_powerOn : (after (.powerOn 6 false) nested).management = none ∧
    (after (.powerOn 6 false) nested).run = true ∧ (after (.powerOn 6 false) nested).epoch = 1 ∧
    (after (.powerOn 6 false) nested).record 0 = { reuse := 0, state := .free } := by decide +kernel

/-- R20 and R33: a record in use has its reuse count raised once; the token counter stays. -/
theorem test_resetNAssert : ((after .resetNAssert nested).record 1) = { reuse := 1, state := .free } ∧
    ((after .resetNAssert nested).record 2) = { reuse := 0, state := .free } ∧
    (after .resetNAssert nested).tokens = 1 ∧ (after .resetNAssert nested).run = false := by decide +kernel

/-- R160: the epoch continues after a RESET_N that starts service. -/
theorem test_resetNRelease :
    let s := after (.resetNRelease 2 true) { setup with resetHeld := true, epoch := 6 }
    s.epoch = 7 ∧ s.run = true ∧ s.management = some 2 := by decide +kernel

/-- R125: the uptime wraps. -/
theorem test_uptimeTick : (after .uptimeTick { setup with uptime := 0xFFFFFFFF }).uptime = 0 := by decide +kernel

/-- R127: the lease of section 13.3, due at uptime 5000, is delivered before the uptime becomes 5002, and not before it
becomes 5001. -/
theorem test_lease_delivered :
    queued (deliverLeases { ms := 5002, sub := 0 } { lapsing with uptime := 5001 }) 2 = [(0, .ended .lapsed)] ∧
    overdue { ms := 5001, sub := 0 } (lapsing.session 2).leaseDeadline = false := by decide +kernel

/-- R125: the 18,432nd period of CLKIN ends the millisecond. -/
theorem test_clkin : (clkinPeriod { setup with clkin := 18431 }).uptime = 1 ∧
    (clkinPeriod { setup with clkin := 18430 }).uptime = 0 := by decide +kernel

/-! ### Expiries -/

/-- Section 13.3: link 2 keeps the frame in transmission and is told ENDED (LAPSED); records 3 and 4 are granted tokens 41
and 42. -/
theorem test_leaseDeadlineExpiry :
    let t := after (.leaseDeadlineExpiry 2) lapsingSending
    queued t 2 = [(1, .doneEmpty), (0, .ended .lapsed)] ∧ (t.link 2).free = 38 ∧
    queued t 1 = [(3, .granted 4 42 .shared), (4, .broken 0 4 .memberLost)] := by decide +kernel

/-- Section 13.3: records 0 and 1 return to FREE with reuse count 1; group 0 is IDLE at generation 5. -/
theorem test_leaseDeadlineExpiry_tables :
    let t := after (.leaseDeadlineExpiry 2) lapsingSending
    t.record 0 = { reuse := 1, state := .free } ∧ t.record 1 = { reuse := 1, state := .free } ∧
    t.group 0 = { generation := 5, arrivals := [] } ∧ t.waitList = [] := by decide +kernel

/-- R51 on the state of section 13.1, host 2's wait given a deadline: TIMED_OUT fills the tag's reservation and the hold
reservation returns. -/
theorem test_lockWaitDeadlineExpiry :
    let s := nested.putState 1 (.waiting 2 blockA .exclusive 1 (some { ms := 0, sub := 0 }) (some 5000))
    let t := after (.lockWaitDeadlineExpiry 1) s
    queued t 2 = [(1, .timedOutRecord 1)] ∧ (t.link 2).reserved = 1 ∧ t.record 1 = { reuse := 1, state := .free } := by
  decide +kernel

/-- R66 on the state of section 13.2 after step 1: record 0 falls back to HELD SHARED with token 19. -/
theorem test_convertWaitDeadlineExpiry :
    let t := after (.convertWaitDeadlineExpiry 0) { converter with uptime := 3000 }
    t.record 0 = { reuse := 0, state := .held 4 blockD .shared 19 none } ∧ queued t 4 = [(7, .timedOutRecord 0)] := by
  decide +kernel

/-- Section 5.5 step 7 in kind: TIMED_OUT, tag closed, record freed; a millisecond earlier nothing happens. -/
theorem test_watchWaitDeadlineExpiry :
    let t := after (.watchWaitDeadlineExpiry 4) { watching with uptime := 5000 }
    queued t 4 = [(70, .timedOutRecord 4)] ∧ t.watchList = [] ∧
    after (.watchWaitDeadlineExpiry 4) { watching with uptime := 4999 } = { watching with uptime := 4999 } := by
  decide +kernel

/-- Section 4.6 step 4: REVOKED to link 1 with token 5, and record 2 is granted token 6. -/
theorem test_holdDeadlineExpiry :
    let t := after (.holdDeadlineExpiry 0) limited
    queued t 1 = [(0, .revoked 0 5)] ∧ (t.link 1).reserved = 1 ∧
    t.record 2 = { reuse := 0, state := .held 3 blockB .exclusive 6 none } := by decide +kernel

/-- Section 6.7 step 11: TIMED_OUT to host 2, BROKEN (TIMEOUT) to host 3, generation 2. -/
theorem test_arrivalDeadlineExpiry :
    let t := after (.arrivalDeadlineExpiry 2 2) { gathering with uptime := 1000 }
    queued t 2 = [(41, .timedOutArrival 2 1)] ∧ queued t 3 = [(52, .broken 2 1 .timeout)] ∧
    t.group 2 = { generation := 2, arrivals := [] } := by decide +kernel

/-! ### Receiver and transmitter (section 9.8) -/

/-- Section 9.8 step 4. -/
theorem test_gapTimerExpiry :
    let t := after (.gapTimerExpiry 5) (receiving (.body 2 [3] false))
    (t.link 5).counters = { Counters.zero with gap := 1 } ∧ (t.link 5).receiver = .hunt := by decide +kernel

/-- R137 with the gap limit of 8 character times of 1,600 CLKIN periods: the timer runs out at the end of the 12,800th. -/
theorem test_gap_limit :
    let at_ (k : Nat) := (receiving .length).putLink 5 { (receiving .length).link 5 with gapTimer := .running k }
    ((clkinPeriod (at_ 12799)).link 5).receiver = .hunt ∧ ((clkinPeriod (at_ 12799)).link 5).counters.gap = 1 ∧
    ((clkinPeriod (at_ 12798)).link 5).receiver = .length ∧ ((clkinPeriod (at_ 12798)).link 5).gapTimer = .running 12799 := by
  decide +kernel

/-- Section 9.8 step 2: length 64 is out of range; so is it when told as a character. -/
theorem test_lengthFault :
    let t := after (.lengthFault 5 0x40) (receiving .length)
    (t.link 5).counters = { Counters.zero with length := 1 } ∧ (t.link 5).receiver = .hunt ∧
    t = after (.characterReceivedWhole 5 0x40) (receiving .length) := by decide +kernel

/-- Section 9.8 step 5: the stop-bit fault poisons the frame. -/
theorem test_stopBitFault :
    let t := after (.stopBitFault 5 3) (receiving (.body 2 [] false))
    (t.link 5).counters = { Counters.zero with framing := 1 } ∧ (t.link 5).receiver = .body 2 [3] true := by
  decide +kernel

/-- R142 and R137: after a stop-bit fault of a value that is not 0, a line that stays low past the gap limit and is then told a
break counts no GAP and keeps its frame until the break's end; a start edge tells that it was no break, and GAP is counted. -/
theorem test_low_line :
    let low := (receiving (.body 2 [3] true)).putLink 5 { (receiving (.body 2 [3] true)).link 5 with gapTimer := .lineLow 12799 }
    let past := clkinPeriod low
    ((after (.stopBitFault 5 3) (receiving (.body 2 [] false))).link 5).gapTimer = .lineLow 0 ∧
    (past.link 5).receiver = .body 2 [3] true ∧ (past.link 5).gapTimer = .lineLow 12800 ∧
    ((after (.breakEnd 5) past).link 5).counters.gap = 0 ∧ ((after (.startEdge 5) past).link 5).counters.gap = 1 ∧
    ((after (.startEdge 5) low).link 5).receiver = .body 2 [3] true := by decide +kernel

/-- R145: a counter at 255 stays. -/
theorem test_counter_stays : bump 255 = 255 ∧ bump 254 = 255 := by decide

/-- Section 9.8 step 6: with three frames queued a good RENEW renews the lease and is dropped with DISCARD. -/
theorem test_frameReceived_full :
    let s := receiving (.check 2 [3, 1] (some 0xE7) false)
    let f : Frame := { kind := 3, tag := 9, body := [] }
    let t := after (.frameReceived 5 0x8E) { s.putLink 5 { s.link 5 with intake := [f, f, f] } with uptime := 77 }
    (t.link 5).counters = { Counters.zero with discard := 1 } ∧ (t.link 5).intake = [f, f, f] ∧
    (t.session 5).state = .opened { ms := 5077, sub := 0 } 1 := by decide +kernel

/-- Section 9.8 step 3: a bad check counts CHECK and renews nothing. -/
theorem test_frameReceived_bad :
    let t := after (.frameReceived 5 0x8F) { receiving (.check 2 [3, 1] (some 0xE7) false) with uptime := 77 }
    (t.link 5).counters = { Counters.zero with check := 1 } ∧ (t.link 5).intake = [] ∧
    (t.session 5).state = .opened { ms := 5000, sub := 0 } 1 := by decide +kernel

/-- R143 and R117: a break clears both queues of the link, closes its session silently and has its group broken. -/
theorem test_breakEnd :
    let t := after (.breakEnd 2) lapsingSending
    (t.link 2).outbound = [] ∧ (t.link 2).reserved = 0 ∧ (t.session 2).state = .closed ∧ t.record 0 = { reuse := 1, state := .free } ∧
    queued t 1 = [(3, .granted 4 42 .shared), (4, .broken 0 4 .memberLost)] := by decide +kernel

/-- R144: the first message's frame, at the adopted code. -/
theorem test_frameTransmitStart :
    let e : OutEntry := { tag := 5, msg := .doneEmpty, adopts := false }
    let s := setup.putLink 3 { setup.link 3 with outbound := [e] }
    ((after (.frameTransmitStart 3) s).link 3).transmitter = .sending 4 [0xA5, 2, 0x81, 5, 0xDA, 0xF0] 0 := by decide +kernel

/-- R134 and Figure 9-1: the line rests high; of the mark byte 0xA5 the start bit is low and the bit after it, its least
significant, high; the stop bit of a break's last character is followed by rest. -/
theorem test_txd :
    let at_ (x : Transmitter) := setup.putLink 3 { setup.link 3 with transmitter := x }
    setup.txd 3 = true ∧ (at_ (.sending 4 [0xA5, 0] 159)).txd 3 = false ∧ (at_ (.sending 4 [0xA5, 0] 160)).txd 3 = true ∧
    (at_ (.sending 4 [0xA5, 0] 1599)).txd 3 = true ∧ (at_ (.sending 4 [0xA5, 0] 1600)).txd 3 = false ∧
    ((clkinPeriod (at_ (.finishing 4 0 1599))).link 3).transmitter = .idle := by decide +kernel

/-- R143 step 3: a break in the third bit of the second character leaves that character to be completed. -/
theorem test_breakEnd_transmitter :
    let s := setup.putLink 3 { setup.link 3 with transmitter := .sending 4 [0xA5, 2, 0x81] 2000 }
    ((after (.breakEnd 3) s).link 3).transmitter = .finishing 4 2 400 := by decide +kernel

/-- The example of section 9.7: the DONE of a SET_LINK for the management link leaves, and code 6 and gap limit 20 are
adopted; the frame in assembly is abandoned uncounted. -/
theorem test_entryTransmitted :
    let e : OutEntry := { tag := 5, msg := .doneEmpty, adopts := true }
    let s := setup.putLink 0 { setup.link 0 with outbound := [e], transmitter := .sending 4 e.chars 0, receiver := .length }
    let s := { s with profile := { s.profile with links := s.profile.links.set 0 { s.settings 0 with baud := 6, gap := 20 } } }
    (after (.entryTransmitted 0) s).link 0 = { LinkUnit.atReset with baud := 6, gap := 20 } := by decide +kernel

/-- R136: the mark byte opens a frame and starts the gap timer; another byte does not. -/
theorem test_characterReceivedWhole :
    ((after (.characterReceivedWhole 5 0xA5) (receiving .hunt)).link 5).receiver = .length ∧
    ((after (.characterReceivedWhole 5 0xA5) (receiving .hunt)).link 5).gapTimer = .running 0 ∧
    after (.characterReceivedWhole 5 0x17) (receiving .hunt) = receiving .hunt := by decide +kernel

/-- R137: a start edge stops the gap timer. -/
theorem test_startEdge :
    ((after (.startEdge 5) (receiving .length)).link 5).gapTimer = .stopped ∧
    ((after (.startEdge 5) (receiving .length)).link 5).inCharacter = true := by decide +kernel

/-! ### Dispatcher -/

/-- Figure 10-1, takes 3 and 8: a used weight passes the turn over a gated head to link 5; the turn comes back to link 2. -/
theorem test_rotation :
    let f : Frame := { kind := 3, tag := 1, body := [] }
    let a : Frame := { kind := 0x10, tag := 1, body := [] }
    let e : OutEntry := { tag := 1, msg := .doneEmpty, adopts := false }
    let s := inService [0, 2, 5]
    let s := { s with profile := { s.profile with links := s.profile.links.set 0 { s.settings 0 with weight := 2 } } }
    let s := s.putLink 2 { s.link 2 with intake := [a], outbound := List.replicate 37 e }
    let t := s.putLink 5 { s.link 5 with intake := [f] }
    { t.putLink 0 { t.link 0 with intake := [f] } with rotation := { current := 0, taken := 2 } }.nextTurn =
      some { current := 5, taken := 1 } ∧
    { s.putLink 2 { s.link 2 with outbound := List.replicate 36 e } with rotation := { current := 2, taken := 1 } }.nextTurn =
      some { current := 2, taken := 1 } := by decide +kernel

/-- R153 and R154: kind 0x16 names no request. -/
theorem test_unknownKindFrame :
    let s := setup.putLink 3 { setup.link 3 with intake := [{ kind := 0x16, tag := 0, body := [7] }] }
    queued (after (.unknownKindFrame 3 0x16 0 [7]) s) 3 = [(0, .refused .unknownKind 0)] := by decide +kernel

/-! ### Requests -/

/-- Section 13.6 step 1: DONE with epoch, counter, lease and quota; one reservation. -/
theorem test_openSession :
    let t := after (.openSession 1 1 []) (request 1 .openSession 1 [] { inService [] with tokens := 1000 })
    queued t 1 = [(1, .doneOpen 1 1000 5000 32)] ∧ (t.link 1).free = 38 ∧ (t.session 1).isOpen = true := by decide +kernel

/-- R109: a LAPSED session must be closed first. -/
theorem test_openSession_lapsed :
    let s := (inService []).putSession 1 { state := .lapsed, tags := [], owned := 0 }
    queued (after (.openSession 1 1 []) (request 1 .openSession 1 [] s)) 1 = [(1, .refused .lapsed 0)] := by decide +kernel

/-- R111 on the state of section 13.3: CANCELLED for each open tag in order, then DONE; the session is CLOSED
with nothing reserved. -/
theorem test_closeSession :
    let t := after (.closeSession 2 14 []) (request 2 .closeSession 14 [] lapsing)
    queued t 2 = [(5, .cancelledRecord 1), (6, .cancelledArrival 0 4), (14, .doneEmpty)] ∧ (t.link 2).reserved = 0 ∧
    (t.session 2).state = .closed := by decide +kernel

/-- R111 step 3 on the same state: host 3, a live member, has not arrived, so group 0 goes on gathering with host 1 alone;
records 3 and 4 are granted. -/
theorem test_closeSession_others :
    let t := after (.closeSession 2 14 []) (request 2 .closeSession 14 [] lapsing)
    t.group 0 = { generation := 4, arrivals := [{ link := 1, tag := 4, due := none }] } ∧
    queued t 4 = [(9, .granted 3 41 .shared)] ∧ queued t 1 = [(3, .granted 4 42 .shared)] := by decide +kernel

/-- R112. -/
theorem test_renew : queued (after (.renew 1 2 []) (request 1 .renew 2 [] nested)) 1 = [(2, .doneRenew 5000)] := by
  decide +kernel

/-- R169: selector 0 reports and clears the counters. -/
theorem test_status :
    let s := request 5 .status 2 [0] (receiving .hunt)
    let s := s.putLink 5 { s.link 5 with counters := { framing := 1, length := 2, check := 3, gap := 4, discard := 5 } }
    let t := after (.status 5 2 [0]) s
    queued t 5 = [(2, .doneStatusLink 1 0 0 39 { framing := 1, length := 2, check := 3, gap := 4, discard := 5 })] ∧
    (t.link 5).counters = Counters.zero := by decide +kernel

/-- R169: selector 1 reports the part; section 13.1 after step 2 has two records in use, one of them WAITING. -/
theorem test_status_part :
    queued (after (.status 3 2 [1]) (request 3 .status 2 [1] nested)) 3 = [(2, .doneStatusPart .service 1 1 2 1 0 0)] := by
  decide +kernel

/-- Section 13.1 step 3, no barging: C overlaps no holding, but an earlier waiter claims A. -/
theorem test_acquire_waits :
    let b := acquireBody blockC 0 2000 0
    let t := after (.acquire 3 1 b) (request 3 .acquire 1 b nested)
    queued t 3 = [(1, .waitingRecord 2 2)] ∧ t.waitList = [1, 2] ∧ (t.link 3).free = 37 ∧
    t.record 2 = { reuse := 0, state := .waiting 3 blockC .shared 1 (some { ms := 2000, sub := 0 }) none } := by
  decide +kernel

/-- Section 2.7 step 4: the lowest FREE record at reuse count 1 gives handle 128. -/
theorem test_acquire_granted :
    let s := { (inService [3]).putRecord 0 { reuse := 1, state := .free } with tokens := 2 }
    let b := acquireBody blockC 0 0 0
    let t := after (.acquire 3 30 b) (request 3 .acquire 30 b s)
    queued t 3 = [(30, .doneHolding 128 3 .shared)] ∧
    t.record 0 = { reuse := 1, state := .held 3 blockC .shared 3 none } := by decide +kernel

/-- Section 13.1 step 5: record 1 is granted token 2, its hold deadline armed from this event; DONE comes to link 1. -/
theorem test_release :
    let t := after (.release 1 2 [0, 0]) (request 1 .release 2 [0, 0] nested)
    queued t 1 = [(2, .doneRelease 0 1)] ∧ queued t 2 = [(1, .granted 1 2 .exclusive)] ∧
    t.record 1 = { reuse := 0, state := .held 2 blockA .exclusive 2 (some { limit := 5000, due := { ms := 5000, sub := 0 } }) } :=
  by decide +kernel

/-- Section 13.2 step 4: the conversion is concluded with CANCELLED before the DONE. -/
theorem test_release_converting :
    let t := after (.release 4 10 [0, 0]) (request 4 .release 10 [0, 0] converter)
    queued t 4 = [(7, .cancelledRecord 0), (10, .doneRelease 0 19)] ∧ t.record 0 = { reuse := 1, state := .free } := by
  decide +kernel

/-- Section 13.2 step 1. -/
theorem test_convert_waits :
    let b := convertBody 0 1 3000
    let t := after (.convert 4 7 b) (request 4 .convert 7 b sharers)
    queued t 4 = [(7, .waitingRecord 0 0)] ∧
    t.record 0 = { reuse := 0, state := .converting 4 blockD 19 7 (some { ms := 3000, sub := 0 }) none } := by decide +kernel

/-- Section 13.2 step 2. -/
theorem test_convert_deadlock :
    let b := convertBody 1 1 3000
    queued (after (.convert 5 8 b) (request 5 .convert 8 b converter)) 5 = [(8, .refused .deadlock 0)] := by decide +kernel

/-- Section 13.5, CANCEL taken first: CANCELLED to the tag, then DONE. -/
theorem test_cancel :
    let t := after (.cancel 2 21 [1]) (request 2 .cancel 21 [1] nested)
    queued t 2 = [(1, .cancelledRecord 1), (21, .doneCancel 1)] ∧ t.record 1 = { reuse := 1, state := .free } := by
  decide +kernel

/-- Section 13.5, RELEASE taken first: the tag is no longer open. -/
theorem test_cancel_not_open :
    queued (after (.cancel 1 21 [20]) (request 1 .cancel 21 [20] nested)) 1 = [(21, .refused .notOpen 1)] := by
  decide +kernel

/-- Section 5.5 step 1. -/
theorem test_watch :
    let b := watchBody blockB 65535
    let t := after (.watch 4 70 b) (request 4 .watch 70 b watched)
    queued t 4 = [(70, .waitingRecord 4 1)] ∧ t.record 4 = { reuse := 0, state := .watching 4 blockB 70 none } ∧
    (t.link 4).free = 37 := by decide +kernel

/-- Section 5.5 step 2. -/
theorem test_watch_conflict :
    let b := watchBody blockC 0
    queued (after (.watch 4 71 b) (request 4 .watch 71 b watched)) 4 = [(71, .refused .conflict 0)] := by decide +kernel

/-- Section 5.5 step 3. -/
theorem test_query :
    queued (after (.query 4 72 (key blockA)) (request 4 .query 72 (key blockA) watched)) 4 =
      [(72, .doneQuery 2 true 2 13)] := by decide +kernel

/-- Section 6.7 step 8. -/
theorem test_arrive_completes :
    let b := arriveBody 5 0
    let t := after (.arrive 1 31 b) (request 1 .arrive 31 b quorum)
    queued t 0 = [(60, .passed 5 0 1 2)] ∧ queued t 1 = [(31, .doneArrive 5 0 2 2)] ∧
    t.group 5 = { generation := 1, arrivals := [] } := by decide +kernel

/-- Section 6.7 step 1. -/
theorem test_arrive_waits :
    let b := arriveBody 2 65535
    let t := after (.arrive 1 30 b) (request 1 .arrive 30 b groups)
    queued t 1 = [(30, .waitingArrive 2 0 1)] ∧
    t.group 2 = { generation := 0, arrivals := [{ link := 1, tag := 30, due := none }] } := by decide +kernel

/-- R162: the management link cannot turn itself off; the field is named. -/
theorem test_setLink_refused :
    let b := linkBody 0 0 4 8 5000 32 1
    queued (after (.setLink 0 1 b) (request 0 .setLink 1 b setup)) 0 = [(1, .refused .badValue 2)] := by decide +kernel

/-- R147: a link other than the management link adopts at once. -/
theorem test_setLink_adopts :
    let b := linkBody 3 1 6 20 50 128 4
    let t := after (.setLink 0 1 b) (request 0 .setLink 1 b setup)
    (t.link 3).baud = 6 ∧ (t.link 3).gap = 20 ∧
    t.settings 3 = { enabled := true, baud := 6, gap := 20, lease := 50, quota := 128, weight := 4 } := by decide +kernel

/-- R146: a link that is enabled has an idle transmitter. -/
theorem test_setLink_enables :
    let e : OutEntry := { tag := 1, msg := .doneEmpty, adopts := false }
    let s := setup.putLink 3 { setup.link 3 with outbound := [e, e], transmitter := .sending 4 e.chars 700 }
    let s := { s with profile := { s.profile with links := s.profile.links.set 3 { s.settings 3 with enabled := false } } }
    let b := linkBody 3 1 4 8 5000 32 1
    ((after (.setLink 0 1 b) (request 0 .setLink 1 b s)).link 3).transmitter = .idle := by decide +kernel

/-- Section 13.6. -/
theorem test_setWindow :
    let b := windowBody 1 0 0 16 0x200000 2
    let t := after (.setWindow 0 1 b) (request 0 .setWindow 1 b setup)
    (t.windows 1).get 0 = { localBase := 0, exp := 16, globalBase := 0x200000, access := .full } ∧
    queued t 0 = [(1, .doneEmpty)] := by decide +kernel

/-- R164 and R89: k above the number of members is refused, field 4. -/
theorem test_setGroup_refused :
    queued (after (.setGroup 0 1 [5, 0b11, 1, 3]) (request 0 .setGroup 1 [5, 0b11, 1, 3] setup)) 0 =
      [(1, .refused .badValue 4)] := by decide +kernel

/-- Section 6.7's group 5. -/
theorem test_setGroup :
    (after (.setGroup 0 1 [5, 0b1111, 1, 2]) (request 0 .setGroup 1 [5, 0b1111, 1, 2] setup)).groupDef 5 =
      { members := 0b1111, mode := .quorum, k := 2 } := by decide +kernel

/-- Section 13.6: the floor raises the counter; R32: a lower floor leaves it. -/
theorem test_setFloor :
    let b := toBytes 4 1000
    (after (.setFloor 0 1 b) (request 0 .setFloor 1 b setup)).tokens = 1000 ∧
    queued (after (.setFloor 0 1 b) (request 0 .setFloor 1 b { setup with tokens := 1001 })) 0 = [(1, .doneFloor 1001)] := by
  decide +kernel

/-- Section 13.6. -/
theorem test_start :
    let t := after (.start 0 1 []) (request 0 .start 1 [] setup)
    t.epoch = 1 ∧ t.run = true ∧ queued t 0 = [(1, .doneStart 1)] := by decide +kernel

/-- Section 13.6 step 7, on the state of section 13.1: each OPEN link is told ENDED (RESTART), link 0 the DONE. -/
theorem test_restart :
    let t := after (.restart 0 9 []) (request 0 .restart 9 [] nested)
    queued t 2 = [(0, .ended .restart)] ∧ queued t 0 = [(9, .doneEmpty)] ∧ (t.link 2).free = 39 ∧
    t.record 1 = { reuse := 1, state := .free } ∧ t.run = false ∧ t.tokens = 1 := by decide +kernel

/-- R167: window 3 of link 5 is index 23. -/
theorem test_profile :
    queued (after (.profile 0 1 [1, 23]) (request 0 .profile 1 [1, 23] setup)) 0 =
      [(1, .doneProfileWindow 23 { localBase := 0, exp := 0, globalBase := 0, access := .noAccess })] ∧
    queued (after (.profile 0 1 [1, 24]) (request 0 .profile 1 [1, 24] setup)) 0 = [(1, .refused .badValue 2)] := by
  decide +kernel

/-- R168 and R116: ENDED (EVICTED) to the link, DONE to the management link. -/
theorem test_evict :
    let t := after (.evict 0 1 [2]) (request 0 .evict 1 [2] nested)
    queued t 2 = [(0, .ended .evicted)] ∧ queued t 0 = [(1, .doneEmpty)] ∧ (t.session 2).state = .lapsed := by decide +kernel

/-! ### Witnesses: for each statement that has hypotheses, a state and operands that meet them -/

/-- The dispatcher takes the frame, by evaluation. -/
theorem takes_of {l : LinkNo} {f : Frame} {s : State} (h : (take l f s).isSome = true) :
    TakesFrame l f s ((take l f s).getD s) := by
  rw [← take_eq_some_iff]
  obtain ⟨t, ht⟩ := Option.isSome_iff_exists.1 h
  simp [ht]

/-- The dispatcher takes the request and it passes the common checks, by evaluation. -/
theorem serves_of {k : ReqKind} {l : LinkNo} {tag : Byte} {body : List Byte} {s : State}
    (h : (take l { kind := k.code, tag := tag, body := body } s).isSome = true)
    (checks : commonChecks k l tag body s = none) : Serves k l tag body s (taken l k tag body s) :=
  ⟨takes_of h, (commonChecks_eq_none_iff ..).1 checks⟩

theorem admits_of {s : State} {l : LinkNo} {b : Block} {w : Window} (h : blockFault b = none)
    (f : findWindow (s.windows l) b = some w) : Admits s l b w :=
  ⟨((blockFault_eq_none_iff b).1 h).1, ((blockFault_eq_none_iff b).1 h).2, (findWindow_eq_some_iff ..).1 f⟩

theorem no_conflict_of {s : State} {b : Block} {m : Mode} (h : s.claimConflicts b m = false) :
    ∀ j, ¬ ConflictsWith s j b m := by
  intro j c
  have := (claimConflicts_iff s b m).2 ⟨j, c⟩
  rw [h] at this; cases this

theorem none_over_of {s : State} {b : Block} (h : s.heldOver b = false) : ∀ j, ¬ HoldsOver s j b := by
  intro j c
  have := (heldOver_iff s b).2 ⟨j, c⟩
  rw [h] at this; cases this

theorem no_other_over_of {s : State} {i : RecNo} {b : Block} (h : s.otherHeldOver i b = false) :
    ∀ j, j ≠ i → ¬ HoldsOver s j b := by
  intro j ne c
  have := (otherHeldOver_iff s i b).2 ⟨j, ne, c⟩
  rw [h] at this; cases this

theorem no_other_converting_of {s : State} {i : RecNo} {b : Block} (h : s.otherConvertingOver i b = false) :
    ∀ j, j ≠ i → HoldsOver s j b → (s.record j).state.isConverting = false := by
  intro j ne c
  by_contra conv
  have := (otherConvertingOver_iff s i b).2 ⟨j, ne, c, by simpa using conv⟩
  rw [h] at this; cases this

/-! #### The step, resets and time -/

theorem witness_PowerOnClearsAll :
    Autostarts 6 false ∧ Autostarts 0 true ∧ ¬ Autostarts 5 false ∧ (5 : Fin 8).val < 6 ∧ 6 ≤ (6 : Fin 8).val := by
  unfold Autostarts; decide

theorem witness_ResetNAssertSetsValues :
    nested.resetHeld = false ∧ (nested.record 0).state ≠ .free ∧ (nested.record 127).state = .free := by decide +kernel

theorem witness_ResetNReleaseLatchesStraps :
    ({ setup with resetHeld := true } : State).resetHeld = true ∧ Autostarts 7 false ∧ Autostarts 5 true ∧
    ¬ Autostarts 5 false := by
  unfold Autostarts; decide

theorem witness_ResetHeldFreezesThePart :
    ({ nested with resetHeld := true } : State).resetHeld = true ∧
    (∀ m a, Instr.breakEnd 2 ≠ .powerOn m a) ∧ (∀ m a, Instr.breakEnd 2 ≠ .resetNRelease m a) := by
  refine ⟨rfl, ?_, ?_⟩ <;> intro m a h <;> cases h

/-- The state of section 13.3 in which the next tick, and the next period, would leave its lease too late. -/
def latest : State := { lapsing with uptime := 5001, clkin := 0 }

theorem latest_in_time : DeadlinesInTime latest := (deadlinesInTime_iff _).2 (by decide +kernel)

/-- Nothing overdue, at the last period of a millisecond and before it; a lease overdue. -/
theorem witness_TimePassesAndDelivers :
    lapsing.resetHeld = false ∧ lapsing.pending = [] ∧ NothingOverdue { ms := lapsing.uptime + 1, sub := 0 } lapsing ∧
    NothingOverdue (periodEnd lapsing) lapsing ∧
    NothingOverdue (periodEnd { lapsing with clkin := 18431 }) { lapsing with clkin := 18431 } ∧
    latest.resetHeld = false ∧ latest.pending = [] ∧ DeadlinesInTime latest ∧
    (∀ g, ((latest.group g).arrivals.map (·.link)).Nodup) ∧
    ¬ NothingOverdue { ms := latest.uptime + 1, sub := 0 } latest ∧ ¬ NothingOverdue (periodEnd latest) latest := by
  refine ⟨by decide +kernel, by decide +kernel, (nothingOverdue_iff ..).2 ?_, (nothingOverdue_iff ..).2 ?_,
    (nothingOverdue_iff ..).2 ?_, by decide +kernel, by decide +kernel, latest_in_time, by decide +kernel, ?_, ?_⟩
  all_goals first | decide +kernel | (rw [nothingOverdue_iff]; decide +kernel)

/-- Both intervals at the ends of their range, over the wrap of the uptime; one CLKIN period too early is too early. -/
theorem witness_DeadlinesFallDueInFull :
    let s : State := { setup with uptime := 0xFFFFFFFF, clkin := 5 }
    let t : State := { setup with uptime := 0, clkin := 5 }
    (1 < 2 ^ 31 ∧ t.uptime = s.uptime + BitVec.ofNat 32 1 ∧ t.reached (s.due 1) = true) ∧
    ({ t with clkin := 4 } : State).reached (s.due 1) = false ∧
    (65535 < 2 ^ 31 ∧ ({ t with uptime := 65534 } : State).uptime = s.uptime + BitVec.ofNat 32 65535 ∧
      ({ t with uptime := 65534 } : State).reached (s.due 65535) = true ∧
      ({ t with uptime := 65533 } : State).reached (s.due 65535) = false) := by decide +kernel

/-! #### Expiries -/

theorem witness_LeaseExpiryLapsesSession :
    lapsingSending.resetHeld = false ∧ (lapsingSending.session 2).state = .opened { ms := 5000, sub := 0 } 1 ∧
    lapsingSending.reached { ms := 5000, sub := 0 } = true := by decide +kernel

theorem witness_LockWaitExpiryFreesRecord :
    let s := nested.putState 1 (.waiting 2 blockA .exclusive 1 (some { ms := 0, sub := 0 }) (some 5000))
    s.resetHeld = false ∧ (s.record 1).state = .waiting 2 blockA .exclusive 1 (some { ms := 0, sub := 0 }) (some 5000) ∧
    s.reached { ms := 0, sub := 0 } = true := by decide +kernel

theorem witness_ConvertWaitExpiryFallsBack :
    let s := { converter with uptime := 3000 }
    s.resetHeld = false ∧ (s.record 0).state = .converting 4 blockD 19 7 (some { ms := 3000, sub := 0 }) none ∧
    s.reached { ms := 3000, sub := 0 } = true := by decide +kernel

/-- The watch of section 5.5 when its deadline has fallen due. -/
def watchDue : State := { watching with uptime := 5000 }

theorem watchDue_settled : ScanSettled watchDue := by
  refine ⟨?_, (nothingUnblocked_iff _).2 ?_⟩
  · unfold ListsMatch; decide +kernel
  · decide +kernel

theorem witness_WatchWaitExpiryFreesRecord :
    watchDue.resetHeld = false ∧ (watchDue.record 4).state = .watching 4 blockC 70 (some { ms := 5000, sub := 0 }) ∧
    watchDue.reached { ms := 5000, sub := 0 } = true ∧ ScanSettled watchDue :=
  ⟨by decide +kernel, by decide +kernel, by decide +kernel, watchDue_settled⟩

theorem witness_HoldExpiryRevokes :
    limited.resetHeld = false ∧ limited.reached { ms := 52000, sub := 0 } = true ∧
    (limited.record 0).state = .held 1 blockA .exclusive 5 (some { limit := 10000, due := { ms := 52000, sub := 0 } }) ∧
    ((limited.putState 0 (.converting 1 blockA 5 9 none (some { limit := 10000, due := { ms := 52000, sub := 0 } }))).record
      0).state = .converting 1 blockA 5 9 none (some { limit := 10000, due := { ms := 52000, sub := 0 } }) := by
  decide +kernel

theorem witness_ArrivalExpiryBreaksRound :
    let s := { gathering with uptime := 1000 }
    s.resetHeld = false ∧ { link := 2, tag := 41, due := some { ms := 1000, sub := 0 } } ∈ (s.group 2).arrivals ∧
    ((s.group 2).arrivals.map (·.link)).Nodup ∧ s.reached { ms := 1000, sub := 0 } = true := by decide +kernel

/-! #### Receiver and transmitter -/

theorem witness_GapTimerAndStartEdge :
    let s := receiving .length
    let low (k : Nat) := s.putLink 5 { s.link 5 with gapTimer := .lineLow k }
    s.resetHeld = false ∧ (s.settings 5).enabled = true ∧ (s.link 5).inCharacter = false ∧ (s.link 5).gapTimer = .running 0 ∧
    ((low 12799).link 5).gapTimer = .lineLow 12799 ∧ 12799 < ((low 0).link 5).gap * (10 * bitPeriods ((low 0).link 5).baud) ∧
    ((low 12800).link 5).gapTimer = .lineLow 12800 ∧
    ((low 0).link 5).gap * (10 * bitPeriods ((low 0).link 5).baud) ≤ 12800 := by decide +kernel

/-- One state for each move of Figure 9-2 that the statement names, at the ends of the ranges of length byte and body. -/
theorem witness_CharactersMoveReceiver :
    (receiving .hunt).resetHeld = false ∧ ((receiving .hunt).settings 5).enabled = true ∧
    (∀ r, ((receiving r).link 5).receiver = r) ∧ (0xA5 : Byte) = 0xA5 ∧ (0xA4 : Byte) ≠ 0xA5 ∧
    2 ≤ (2 : Byte).toNat ∧ (58 : Byte).toNat ≤ 58 ∧
    ([3] : List Byte).length + 1 < (3 : Byte).toNat ∧ ([3] : List Byte).length + 1 = (2 : Byte).toNat := by
  refine ⟨by decide +kernel, by decide +kernel, fun r => ?_, by decide, by decide, by decide, by decide, by decide, by decide⟩
  simp [receiving]

theorem witness_LengthFaultAbandonsFrame :
    (receiving .length).resetHeld = false ∧ ((receiving .length).settings 5).enabled = true ∧
    ((receiving .length).link 5).receiver = .length ∧
    (1 : Byte).toNat < 2 ∧ 58 < (59 : Byte).toNat ∧ (0 : Byte).toNat < 2 ∧ 58 < (255 : Byte).toNat := by decide +kernel

theorem witness_StopBitFaultPoisonsFrame :
    (receiving .hunt).resetHeld = false ∧ ((receiving .hunt).settings 5).enabled = true ∧
    (∀ r, ((receiving r).link 5).receiver = r) ∧ 2 ≤ (2 : Byte).toNat ∧ (58 : Byte).toNat ≤ 58 ∧
    (1 : Byte).toNat < 2 ∧ 58 < (59 : Byte).toNat ∧
    ([] : List Byte).length + 1 < (2 : Byte).toNat ∧ ([3] : List Byte).length + 1 = (2 : Byte).toNat := by
  refine ⟨by decide +kernel, by decide +kernel, fun r => ?_, by decide, by decide, by decide, by decide, by decide, by decide⟩
  simp [receiving]

/-- The RENEW frame of R139's test with 2 and with 3 frames queued, with a bad check, and poisoned. -/
theorem witness_FrameCompletionAtSecondCheckByte :
    let r (p : Bool) : Receiver := .check 2 [3, 1] (some 0xE7) p
    let f : Frame := { kind := 3, tag := 9, body := [] }
    let s := receiving (r false)
    s.resetHeld = false ∧ (s.settings 5).enabled = true ∧ (s.link 5).receiver = r false ∧
    ((receiving (r true)).link 5).receiver = r true ∧
    ((0xE7 : Byte) ++ (0x8E : Byte)) = checkOf [2, 3, 1] ∧ ((0xE7 : Byte) ++ (0x8F : Byte)) ≠ checkOf [2, 3, 1] ∧
    ((s.putLink 5 { s.link 5 with intake := [f, f] }).link 5).intake.length < 3 ∧
    3 ≤ ((s.putLink 5 { s.link 5 with intake := [f, f, f] }).link 5).intake.length := by decide +kernel

/-- A longest and an empty body, with 2 frames queued. -/
theorem witness_ReceivingASentFrameAdmitsIt :
    let f : Frame := { kind := 3, tag := 9, body := [] }
    let s := (receiving .hunt).putLink 5 { (receiving .hunt).link 5 with intake := [f, f] }
    s.resetHeld = false ∧ (s.settings 5).enabled = true ∧ (s.link 5).receiver = .hunt ∧
    (List.replicate 56 (7 : Byte)).length ≤ 56 ∧ ([] : List Byte).length ≤ 56 ∧ (s.link 5).intake.length < 3 := by
  decide +kernel

/-- An OPEN and a CLOSED session; an entry that adopts and none. -/
theorem witness_BreakEndClearsLink :
    let e : OutEntry := { tag := 5, msg := .doneEmpty, adopts := true }
    let s := setup.putLink 0 { setup.link 0 with outbound := [e] }
    lapsingSending.resetHeld = false ∧ (lapsingSending.settings 2).enabled = true ∧
    (lapsingSending.session 2).isOpen = true ∧ (lapsingSending.link 2).outbound.any (·.adopts) = false ∧
    s.resetHeld = false ∧ (s.settings 0).enabled = true ∧ (s.session 0).isOpen = false ∧
    (s.link 0).outbound.any (·.adopts) = true ∧ (s.link 0).transmitter = .idle := by decide +kernel

/-- A break in the last period of a frame's last character. -/
theorem witness_BreakEndClearsLink_sending :
    let s := setup.putLink 0 { setup.link 0 with transmitter := .sending 4 [1, 2] 3199 }
    s.resetHeld = false ∧ (s.settings 0).enabled = true ∧ (s.link 0).transmitter = .sending 4 [1, 2] 3199 ∧
    ([1, 2] : List Byte)[3199 / (10 * bitPeriods 4)]? = some 2 := by decide +kernel

/-- Idle with a message; sending, with nothing to adopt, with the adopted settings equal to the profile's, and with a
changed code. -/
theorem witness_TransmitterSendsHeadEntry :
    let plain : OutEntry := { tag := 5, msg := .doneEmpty, adopts := false }
    let adopting : OutEntry := { plain with adopts := true }
    let idle := setup.putLink 0 { setup.link 0 with outbound := [plain] }
    let sending (e : OutEntry) := setup.putLink 0 { setup.link 0 with outbound := [e], transmitter := .sending 4 e.chars 0 }
    let changed : State := { sending adopting with profile := { setup.profile with
      links := setup.profile.links.set 0 { setup.settings 0 with baud := 6 } } }
    (idle.resetHeld = false ∧ (idle.link 0).outbound = plain :: [] ∧ (idle.settings 0).enabled = true ∧
      (idle.link 0).transmitter = .idle) ∧
    ((sending plain).link 0).outbound = plain :: [] ∧ ((sending plain).link 0).transmitter = .sending 4 plain.chars 0 ∧
    (sending adopting).resetHeld = false ∧ ((sending adopting).link 0).transmitter = .sending 4 adopting.chars 0 ∧
    ((sending adopting).link 0).baud = ((sending adopting).settings 0).baud ∧
    ((sending adopting).link 0).gap = ((sending adopting).settings 0).gap ∧
    (changed.link 0).outbound = adopting :: [] ∧ (changed.link 0).transmitter = .sending 4 adopting.chars 0 ∧
    (changed.link 0).baud ≠ (changed.settings 0).baud := by decide +kernel

/-- The line: the last period of the second character's stop bit, the first of its start bit, and a data bit. -/
theorem witness_TransmitterSendsHeadEntry_line :
    let at_ (k : Nat) := setup.putLink 0 { setup.link 0 with transmitter := .sending 4 [0xA5, 2] k }
    setup.resetHeld = false ∧ (setup.link 0).transmitter = .idle ∧ ([0xA5, 2] : List Byte)[1]? = some 2 ∧
    ((at_ 3199).link 0).transmitter = .sending 4 [0xA5, 2] ((1 * 10 + 9) * bitPeriods 4 + 159) ∧ 159 < bitPeriods 4 ∧
    ((at_ 1600).link 0).transmitter = .sending 4 [0xA5, 2] ((1 * 10 + 0) * bitPeriods 4 + 0) ∧
    ((at_ 1920).link 0).transmitter = .sending 4 [0xA5, 2] ((1 * 10 + 2) * bitPeriods 4 + 0) ∧
    ((setup.putLink 0 { setup.link 0 with transmitter := .finishing 4 2 1599 }).link 0).transmitter =
      .finishing 4 2 (9 * bitPeriods 4 + 159) := by decide +kernel

/-! #### Dispatcher -/

theorem witness_UnknownKindIsRefused :
    let f : Frame := { kind := 0x16, tag := 0, body := [7] }
    let s := setup.putLink 3 { setup.link 3 with intake := [f] }
    TakesFrame 3 f s ((take 3 f s).getD s) ∧ (0x16 : Byte) ∉ requestKindCodes :=
  ⟨takes_of (by decide +kernel), by decide⟩

/-- A request of this kind, tag and body is taken from link `l` in state `s`. -/
def Taken (k : ReqKind) (l : LinkNo) (tag : Byte) (body : List Byte) (s : State) : Prop :=
  TakesFrame l { kind := k.code, tag := tag, body := body } (request l k tag body s)
    (taken l k tag body (request l k tag body s))

/-- Sixteen open tags on link 2 of the state of section 13.3. -/
def sixteenTags : State :=
  lapsing.putSession 2 { lapsing.session 2 with tags := (List.range 16).map fun n =>
    { tag := BitVec.ofNat 8 (n + 100), ref := .arrival 0 } }

/-- One state and request for each common check. -/
theorem witness_CommonCheckRefusesOnly :
    let closed := lapsing.putSession 2 { state := .closed, tags := [], owned := 0 }
    let lapsed := lapsing.putSession 2 { state := .lapsed, tags := [], owned := 0 }
    (Taken .renew 2 0 [] lapsing ∧ ChecksFail .renew 2 0 [] (request 2 .renew 0 [] lapsing) .badTag) ∧
    (Taken .renew 2 1 [7] lapsing ∧ ChecksFail .renew 2 1 [7] (request 2 .renew 1 [7] lapsing) .malformed) ∧
    (Taken .start 2 1 [] lapsing ∧ ChecksFail .start 2 1 [] (request 2 .start 1 [] lapsing) .notManager) ∧
    (Taken .start 0 1 [] lapsing ∧ ChecksFail .start 0 1 [] (request 0 .start 1 [] lapsing) .inService) ∧
    (Taken .renew 2 1 [] setup ∧ ChecksFail .renew 2 1 [] (request 2 .renew 1 [] setup) .notInService) ∧
    (Taken .renew 2 1 [] closed ∧ ChecksFail .renew 2 1 [] (request 2 .renew 1 [] closed) .noSession) ∧
    (Taken .renew 2 1 [] lapsed ∧ ChecksFail .renew 2 1 [] (request 2 .renew 1 [] lapsed) .lapsed) ∧
    (Taken .renew 2 5 [] lapsing ∧ ChecksFail .renew 2 5 [] (request 2 .renew 5 [] lapsing) .dupTag) ∧
    (Taken .arrive 2 1 [0, 0, 0] sixteenTags ∧
      ChecksFail .arrive 2 1 [0, 0, 0] (request 2 .arrive 1 [0, 0, 0] sixteenTags) .tagsFull) := by
  refine ⟨⟨takes_of (by decide +kernel), .badTag rfl⟩, ⟨takes_of (by decide +kernel), .malformed ?_ ?_⟩,
    ⟨takes_of (by decide +kernel), .notManager ?_ ?_ ?_ ?_⟩, ⟨takes_of (by decide +kernel), .inService ?_ ?_ ?_ ?_ ?_⟩,
    ⟨takes_of (by decide +kernel), .notInService ?_ ?_ ?_ ?_ ?_⟩, ⟨takes_of (by decide +kernel), .noSession ?_ ?_ ?_ ?_ ?_⟩,
    ⟨takes_of (by decide +kernel), .lapsed ?_ ?_ ?_ ?_ ?_⟩, ⟨takes_of (by decide +kernel), .dupTag ?_ ?_ ?_ ?_ ?_ ?_ ?_⟩,
    ⟨takes_of (by decide +kernel), .tagsFull ?_ ?_ ?_ ?_ ?_ ?_ ?_⟩⟩ <;> decide +kernel

theorem witness_ReplyIsQueuedLast :
    requestOf (.renew 2 1 []) = some (.renew, 2, 1, []) ∧ Taken .renew 2 1 [] lapsing :=
  ⟨rfl, takes_of (by decide +kernel)⟩

/-- The CANCEL of section 13.5 that comes too late, and what it leaves. -/
theorem witness_RefusedRequestOnlyReplies :
    let s := request 1 .cancel 21 [20] nested
    let u := after (.cancel 1 21 [20]) s
    requestOf (.cancel 1 21 [20]) = some (.cancel, 1, 21, [20]) ∧ Taken .cancel 1 21 [20] nested ∧
    exec (.cancel 1 21 [20]) s = .next u ∧
    (u.link 1).outbound = [] ++ [{ tag := 21, msg := .refused .notOpen 1, adopts := false }] := by
  refine ⟨rfl, takes_of (by decide +kernel), ?_, by decide +kernel⟩
  simp [after, exec, execCancel, serve]
  split <;> [rfl; (split <;> rfl)]

/-! #### What an owner refuses -/

/-- The request is taken in state `s`, passes the common checks and is refused by its owner. -/
def RefusedByOwner (k : ReqKind) (l : LinkNo) (body : List Byte) (s : State) (r : Reason) (d : Byte) : Prop :=
  Serves k l 9 body (request l k 9 body s) (taken l k 9 body (request l k 9 body s)) ∧
  OwnerRefuses l body (request l k 9 body s) k r d

theorem no_window_of {s : State} {l : LinkNo} {b : Block} (h : findWindow (s.windows l) b = none) :
    ∀ w, ¬ FirstWindow s l b w := by
  intro w f
  rw [(findWindow_eq_some_iff s l b w).2 f] at h
  cases h

/-- Link 4 of section 5.5 with the windows of Table 1-6. -/
def windowed : State := { watched with profile := { watched.profile with windows := watched.profile.windows.set 4 table1_6 } }

/-- R10 at its boundaries: exponents 24 and 25, modes 1 and 2, a block that no window contains, a window of shared rights. -/
theorem witness_OwnerRefusesOnly_blocks :
    RefusedByOwner .query 4 (key { base := 0, exp := 25 }) watched .badBlock 2 ∧
    RefusedByOwner .watch 4 (watchBody { base := 1, exp := 1 } 0) watched .badBlock 1 ∧
    RefusedByOwner .acquire 4 (acquireBody blockD 2 0 0) watched .badValue 3 ∧
    RefusedByOwner .acquire 4 (acquireBody { base := 0, exp := 24 } 1 0 0) windowed .outOfWindow 0 ∧
    RefusedByOwner .acquire 4 (acquireBody { base := 0x1400, exp := 8 } 1 0 0) windowed .access 3 := by
  refine ⟨⟨serves_of ?_ ?_, .exponent _ _ rfl ?_⟩, ⟨serves_of ?_ ?_, .alignment _ _ rfl ?_ ?_⟩,
    ⟨serves_of ?_ ?_, .mode ?_ ?_ ?_⟩, ⟨serves_of ?_ ?_, .outOfWindow _ _ rfl ?_ ?_ ?_ (no_window_of ?_)⟩,
    ⟨serves_of ?_ ?_, .access table1_6[1] (admits_of ?_ ?_) ?_ ?_⟩⟩ <;> decide +kernel

/-- An ACQUIRE of D, which conflicts with nothing in section 5.5. -/
theorem grantsD (s : State) (adm : findWindow (s.windows 4) blockD = some Window.wholeSpace)
    (free : s.claimConflicts blockD .exclusive = false) : GrantsAtOnce 4 (acquireBody blockD 1 0 0) s :=
  ⟨blockD, .exclusive, ⟨Window.wholeSpace, admits_of (by decide +kernel) adm, by decide +kernel, by decide, by decide +kernel⟩,
    no_conflict_of free⟩

/-- An ACQUIRE of B with wait limit 1, which conflicts with the holding of section 5.5. -/
theorem waitsB (s : State) (adm : findWindow (s.windows 4) blockB = some Window.wholeSpace)
    (met : s.claimConflicts blockB .exclusive = true) : MustWait 4 (acquireBody blockB 1 1 0) s :=
  ⟨blockB, .exclusive, ⟨Window.wholeSpace, admits_of (by decide +kernel) adm, by decide +kernel, by decide, by decide +kernel⟩,
    (claimConflicts_iff ..).1 met, by decide +kernel⟩

/-- A WATCH of B with wait limit 1. -/
theorem watchesB (s : State) (adm : findWindow (s.windows 4) blockB = some Window.wholeSpace)
    (met : s.heldOver (Window.wholeSpace.translate blockB) = true) : MustWatch 4 (watchBody blockB 1) s :=
  ⟨Window.wholeSpace, admits_of (by decide +kernel) adm, (heldOver_iff ..).1 met, by decide +kernel⟩

/-- R29 and R31 at their boundaries: a quota of 32 used, no FREE record, 64 WAITING, 16 WATCHING, the counter's maximum. -/
theorem witness_OwnerRefusesOnly_room :
    let full := watched.putSession 4 { watched.session 4 with owned := 32 }
    let pool : State := { watched with records := Vector.replicate 128 { reuse := 0, state := .watching 0 blockA 1 none } }
    RefusedByOwner .acquire 4 (acquireBody blockD 1 0 0) full .quota 0 ∧
    RefusedByOwner .acquire 4 (acquireBody blockB 1 1 0) full .quota 0 ∧
    RefusedByOwner .watch 4 (watchBody blockB 1) full .quota 0 ∧
    RefusedByOwner .acquire 4 (acquireBody blockD 1 0 0) pool .noRoom 0 ∧
    RefusedByOwner .acquire 4 (acquireBody blockB 1 1 0) { watched with waitList := List.replicate 64 2 } .noRoom 0 ∧
    RefusedByOwner .watch 4 (watchBody blockB 1) { watched with watchList := List.replicate 16 4 } .noRoom 0 ∧
    RefusedByOwner .acquire 4 (acquireBody blockD 1 0 0) { watched with tokens := 0xFFFFFFFF } .tokensSpent 0 := by
  refine ⟨⟨serves_of ?_ ?_, .quota _ (.inl ⟨rfl, .inl (grantsD _ ?_ ?_)⟩) ?_⟩,
    ⟨serves_of ?_ ?_, .quota _ (.inl ⟨rfl, .inr (waitsB _ ?_ ?_)⟩) ?_⟩,
    ⟨serves_of ?_ ?_, .quota _ (.inr ⟨rfl, watchesB _ ?_ ?_⟩) ?_⟩,
    ⟨serves_of ?_ ?_, .poolFull _ (.inl ⟨rfl, .inl (grantsD _ ?_ ?_)⟩) ?_ ?_⟩,
    ⟨serves_of ?_ ?_, .waitListFull 127 (waitsB _ ?_ ?_) ?_ ?_ ?_⟩,
    ⟨serves_of ?_ ?_, .watchListFull 127 (watchesB _ ?_ ?_) ?_ ?_ ?_⟩,
    ⟨serves_of ?_ ?_, .tokensSpent 127 (grantsD _ ?_ ?_) ?_ ?_ ?_⟩⟩ <;> decide +kernel

theorem no_record_of {s : State} {l : LinkNo} {h : Nat} (x : s.named l h = none) : ∀ i, ¬ ValidHandle s l h i := by
  intro i v
  rw [(named_eq_some_iff s l h i).2 v] at x
  cases x

/-- R22, R56, R59, R122: a handle of another host's record, a WAITING record, modes 1 and 2, a record already CONVERTING, the
mode a record has already, a tag not open. -/
theorem witness_OwnerRefusesOnly_handles :
    RefusedByOwner .release 4 [0, 0] watched .staleHandle 1 ∧
    RefusedByOwner .convert 0 (convertBody 128 0 0) watched .staleHandle 1 ∧
    RefusedByOwner .release 2 [0, 2] watched .notHeld 0 ∧
    RefusedByOwner .convert 0 (convertBody 0 2 0) watched .badValue 2 ∧
    RefusedByOwner .convert 4 (convertBody 0 1 0) converter .notHeld 0 ∧
    RefusedByOwner .convert 0 (convertBody 0 1 0) watched .sameMode 2 ∧
    RefusedByOwner .cancel 2 [0] watched .notOpen 1 := by
  refine ⟨⟨serves_of ?_ ?_, .staleHandle _ _ rfl (no_record_of ?_)⟩,
    ⟨serves_of ?_ ?_, .staleHandle _ _ rfl (no_record_of ?_)⟩,
    ⟨serves_of ?_ ?_, .releaseNotHeld 2 ((named_eq_some_iff ..).1 ?_) ?_⟩,
    ⟨serves_of ?_ ?_, .convertMode 0 ((named_eq_some_iff ..).1 ?_) ?_⟩,
    ⟨serves_of ?_ ?_, .convertNotHeld 0 ((named_eq_some_iff ..).1 ?_) ?_ ?_⟩,
    ⟨serves_of ?_ ?_, .sameMode 0 blockC .exclusive 12 none ((named_eq_some_iff ..).1 ?_) ?_ ?_⟩,
    ⟨serves_of ?_ ?_, .notOpen ?_⟩⟩ <;> decide +kernel

/-- R92 and R168: group 8, a link that is no member, a second arrival, link 6, the management link, a CLOSED session. -/
theorem witness_OwnerRefusesOnly_groups :
    RefusedByOwner .arrive 0 (arriveBody 8 0) groups .badValue 1 ∧
    RefusedByOwner .arrive 0 (arriveBody 2 0) groups .notMember 0 ∧
    RefusedByOwner .arrive 2 (arriveBody 2 0) gathering .alreadyArrived 0 ∧
    RefusedByOwner .evict 0 [6] groups .badValue 1 ∧ RefusedByOwner .evict 0 [0] groups .badValue 1 ∧
    RefusedByOwner .evict 0 [5] groups .noSession 0 ∧ RefusedByOwner .status 0 [2] groups .badValue 1 := by
  refine ⟨⟨serves_of ?_ ?_, .badValue _ _ ?_⟩, ⟨serves_of ?_ ?_, .notMember 2 ?_ ?_⟩,
    ⟨serves_of ?_ ?_, .alreadyArrived 2 { link := 2, tag := 41, due := some { ms := 1000, sub := 0 } } ?_ ?_ ?_ rfl⟩,
    ⟨serves_of ?_ ?_, .badValue _ _ ?_⟩, ⟨serves_of ?_ ?_, .badValue _ _ ?_⟩, ⟨serves_of ?_ ?_, .evictNoSession 5 ?_ ?_ ?_⟩,
    ⟨serves_of ?_ ?_, .badValue _ _ ?_⟩⟩
  all_goals first | decide +kernel | (simp only [badFields, FirstFails]; decide +kernel)

/-- R162, R163, R164 and R167: for each field a value just outside its range, the fields before it in range. -/
theorem witness_OwnerRefusesOnly_fields :
    RefusedByOwner .setLink 0 (linkBody 6 1 7 2 50 1 1) setup .badValue 1 ∧
    RefusedByOwner .setLink 0 (linkBody 5 2 7 2 50 1 1) setup .badValue 2 ∧
    RefusedByOwner .setLink 0 (linkBody 0 0 7 2 50 1 1) setup .badValue 2 ∧
    RefusedByOwner .setLink 0 (linkBody 5 0 8 2 50 1 1) setup .badValue 3 ∧
    RefusedByOwner .setLink 0 (linkBody 5 0 7 251 50 1 1) setup .badValue 4 ∧
    RefusedByOwner .setLink 0 (linkBody 5 0 7 250 60001 1 1) setup .badValue 5 ∧
    RefusedByOwner .setLink 0 (linkBody 5 0 7 250 60000 129 1) setup .badValue 6 ∧
    RefusedByOwner .setLink 0 (linkBody 5 0 7 250 60000 128 5) setup .badValue 7 ∧
    RefusedByOwner .setWindow 0 (windowBody 5 4 0 24 0 0) setup .badValue 2 ∧
    RefusedByOwner .setWindow 0 (windowBody 5 3 0 25 0 0) setup .badValue 4 ∧
    RefusedByOwner .setWindow 0 (windowBody 5 3 1 24 1 3) setup .badValue 3 ∧
    RefusedByOwner .setWindow 0 (windowBody 5 3 0 24 1 3) setup .badValue 5 ∧
    RefusedByOwner .setWindow 0 (windowBody 5 3 0 24 0 3) setup .badValue 6 ∧
    RefusedByOwner .setGroup 0 [8, 0, 0, 1] setup .badValue 1 ∧
    RefusedByOwner .setGroup 0 [7, 64, 0, 1] setup .badValue 2 ∧
    RefusedByOwner .setGroup 0 [7, 63, 2, 1] setup .badValue 3 ∧
    RefusedByOwner .setGroup 0 [7, 0, 1, 7] setup .badValue 4 ∧
    RefusedByOwner .setGroup 0 [7, 31, 1, 6] setup .badValue 4 ∧
    RefusedByOwner .profile 0 [4, 0] setup .badValue 1 ∧
    RefusedByOwner .profile 0 [0, 6] setup .badValue 2 ∧ RefusedByOwner .profile 0 [1, 24] setup .badValue 2 ∧
    RefusedByOwner .profile 0 [2, 8] setup .badValue 2 ∧ RefusedByOwner .profile 0 [3, 1] setup .badValue 2 := by
  refine ⟨?_, ?_, ?_, ?_, ?_, ?_, ?_, ?_, ?_, ?_, ?_, ?_, ?_, ?_, ?_, ?_, ?_, ?_, ?_, ?_, ?_, ?_, ?_⟩ <;>
    refine ⟨serves_of ?_ ?_, .badValue _ _ ?_⟩
  all_goals first | decide +kernel | (simp only [badFields, FirstFails]; decide +kernel)

/-! #### Sessions -/

theorem witness_OpenAndCloseAnswer_open :
    let lapsed := lapsing.putSession 2 { state := .lapsed, tags := [], owned := 0 }
    (Serves .openSession 0 1 [] (request 0 .openSession 1 [] lapsing) (taken 0 .openSession 1 [] (request 0 .openSession 1 [] lapsing)) ∧
      ((request 0 .openSession 1 [] lapsing).session 0).state = .closed) ∧
    (Serves .openSession 1 1 [] (request 1 .openSession 1 [] lapsing) (taken 1 .openSession 1 [] (request 1 .openSession 1 [] lapsing)) ∧
      ((request 1 .openSession 1 [] lapsing).session 1).isOpen = true) ∧
    (Serves .openSession 2 1 [] (request 2 .openSession 1 [] lapsed) (taken 2 .openSession 1 [] (request 2 .openSession 1 [] lapsed)) ∧
      ((request 2 .openSession 1 [] lapsed).session 2).state = .lapsed) := by
  refine ⟨⟨serves_of ?_ ?_, ?_⟩, ⟨serves_of ?_ ?_, ?_⟩, ⟨serves_of ?_ ?_, ?_⟩⟩ <;> decide +kernel

/-- The state of section 13.3 with a CLOSE of host 2, its records, tags and arrival, meets the invariant. -/
def closing : State := request 2 .closeSession 14 [] lapsing

theorem lapsing_sound : SessionsSound lapsing := by
  refine ⟨?_, ?_, (tagsMatch_iff _).2 ?_, (ownersOpen_iff _).2 ?_, ?_, ?_⟩
  all_goals first | decide +kernel | (unfold SetupIsEmpty; decide +kernel) |
    (unfold ProfileInRange LinkSettingsInRange WindowInRange GroupDefInRange; decide +kernel) |
    (unfold ArrivalsSound; decide +kernel) | (unfold AccountBalanced; decide +kernel)

theorem closing_sound : SessionsSound closing := by
  refine ⟨?_, ?_, (tagsMatch_iff _).2 ?_, (ownersOpen_iff _).2 ?_, ?_, ?_⟩
  all_goals first | decide +kernel | (unfold SetupIsEmpty; decide +kernel) |
    (unfold ProfileInRange LinkSettingsInRange WindowInRange GroupDefInRange; decide +kernel) |
    (unfold ArrivalsSound; decide +kernel) | (unfold AccountBalanced; decide +kernel)

theorem witness_CloseRunsCloseSequence :
    Serves .closeSession 2 14 [] closing (taken 2 .closeSession 14 [] closing) ∧ (closing.session 2).isOpen = true ∧
    SessionsSound closing :=
  ⟨serves_of (by decide +kernel) (by decide +kernel), by decide +kernel, closing_sound⟩

theorem witness_OpenAndCloseAnswer_close :
    let lapsed := request 2 .closeSession 14 [] (lapsing.putSession 2 { state := .lapsed, tags := [], owned := 0 })
    let closed := request 0 .closeSession 14 [] lapsing
    (Serves .closeSession 2 14 [] lapsed (taken 2 .closeSession 14 [] lapsed) ∧ (lapsed.session 2).state = .lapsed) ∧
    (Serves .closeSession 0 14 [] closed (taken 0 .closeSession 14 [] closed) ∧ (closed.session 0).state = .closed) := by
  refine ⟨⟨serves_of ?_ ?_, ?_⟩, ⟨serves_of ?_ ?_, ?_⟩⟩ <;> decide +kernel

theorem witness_RenewAndStatusAnswer :
    let r := request 2 .renew 1 [] lapsing
    let a := request 2 .status 1 [0] lapsing
    let b := request 2 .status 1 [1] lapsing
    Serves .renew 2 1 [] r (taken 2 .renew 1 [] r) ∧ Serves .status 2 1 [0] a (taken 2 .status 1 [0] a) ∧
    Serves .status 2 1 [1] b (taken 2 .status 1 [1] b) := by
  refine ⟨serves_of ?_ ?_, serves_of ?_ ?_, serves_of ?_ ?_⟩ <;> decide +kernel

/-- A LOCK_WAIT, a CONVERT, a WATCH and an ARRIVAL tag. -/
theorem witness_CancelConcludesOpenTag :
    let a := request 2 .cancel 21 [1] nested
    let b := request 4 .cancel 21 [7] converter
    let c := request 4 .cancel 21 [70] watching
    let d := request 2 .cancel 21 [41] gathering
    (Serves .cancel 2 21 [1] a (taken 2 .cancel 21 [1] a) ∧
      (a.session 2).lookup 1 = some { tag := 1, ref := .lockWait 1 } ∧
      (a.record 1).state = .waiting 2 blockA .exclusive 1 none (some 5000)) ∧
    (Serves .cancel 4 21 [7] b (taken 4 .cancel 21 [7] b) ∧
      (b.session 4).lookup 7 = some { tag := 7, ref := .convert 0 } ∧
      (b.record 0).state = .converting 4 blockD 19 7 (some { ms := 3000, sub := 0 }) none) ∧
    (Serves .cancel 4 21 [70] c (taken 4 .cancel 21 [70] c) ∧
      (c.session 4).lookup 70 = some { tag := 70, ref := .watch 4 } ∧
      (c.record 4).state = .watching 4 blockC 70 (some { ms := 5000, sub := 0 })) ∧
    (Serves .cancel 2 21 [41] d (taken 2 .cancel 21 [41] d) ∧
      (d.session 2).lookup 41 = some { tag := 41, ref := .arrival 2 }) := by
  refine ⟨⟨serves_of ?_ ?_, ?_, ?_⟩, ⟨serves_of ?_ ?_, ?_, ?_⟩, ⟨serves_of ?_ ?_, ?_, ?_⟩, ⟨serves_of ?_ ?_, ?_⟩⟩ <;>
    decide +kernel

/-! #### Grant scan and lock requests -/

/-- Section 5.5 once C is released: the scan has a watch to fire; section 13.1 once B is: it has a waiter to grant. -/
theorem witness_GrantScanDecides :
    ListsMatch (watching.putRecord 0 { reuse := 1, state := .free }) ∧
    ListsMatch (nested.putRecord 0 { reuse := 1, state := .free }) := by
  unfold ListsMatch; decide +kernel

/-- ACQUIRE EXCLUSIVE D against the holdings of section 13.1, none of which overlaps D. -/
theorem witness_AcquireGrantsAtOnce :
    let body := acquireBody blockD 1 0 65535
    let s := request 3 .acquire 1 body nested
    Serves .acquire 3 1 body s (taken 3 .acquire 1 body s) ∧ Mode.ofCode (AcquireReq.ofBody body).mode = some .exclusive ∧
    Admits s 3 (AcquireReq.ofBody body).block Window.wholeSpace ∧
    ¬ (Mode.exclusive = .exclusive ∧ Window.wholeSpace.access = .sharedOnly) ∧
    (∀ j, ¬ ConflictsWith s j (Window.wholeSpace.translate (AcquireReq.ofBody body).block) .exclusive) ∧
    BelowQuota s 3 ∧ LowestFree s 2 ∧ s.tokens ≠ 0xFFFFFFFF := by
  refine ⟨serves_of ?_ ?_, ?_, admits_of ?_ ?_, ?_, no_conflict_of ?_, ?_, (lowestFree_eq_some_iff ..).1 ?_, ?_⟩
  all_goals first | decide +kernel | (unfold BelowQuota; decide +kernel)

/-- Section 13.1 step 3, with the longest limited wait and without limit. -/
theorem witness_AcquireEntersWaitList :
    ∀ wait, wait = 65534 ∨ wait = 65535 ∨ wait = 1 →
    let body := acquireBody blockC 0 wait 0
    let s := request 3 .acquire 1 body nested
    Serves .acquire 3 1 body s (taken 3 .acquire 1 body s) ∧ Mode.ofCode (AcquireReq.ofBody body).mode = some .shared ∧
    Admits s 3 (AcquireReq.ofBody body).block Window.wholeSpace ∧
    ¬ (Mode.shared = .exclusive ∧ Window.wholeSpace.access = .sharedOnly) ∧
    (∃ j, ConflictsWith s j (Window.wholeSpace.translate (AcquireReq.ofBody body).block) .shared) ∧
    (AcquireReq.ofBody body).wait ≠ 0 ∧ BelowQuota s 3 ∧ LowestFree s 2 ∧ s.waitList.length < 64 := by
  rintro wait (rfl | rfl | rfl) <;>
  refine ⟨serves_of ?_ ?_, ?_, admits_of ?_ ?_, ?_, (claimConflicts_iff ..).1 ?_, ?_, ?_, (lowestFree_eq_some_iff ..).1 ?_, ?_⟩
  all_goals first | decide +kernel | (unfold BelowQuota; decide +kernel)

theorem witness_AcquireTryConflictIsRefused :
    let body := acquireBody blockC 0 0 0
    let s := request 3 .acquire 1 body nested
    Serves .acquire 3 1 body s (taken 3 .acquire 1 body s) ∧ Mode.ofCode (AcquireReq.ofBody body).mode = some .shared ∧
    Admits s 3 (AcquireReq.ofBody body).block Window.wholeSpace ∧
    ¬ (Mode.shared = .exclusive ∧ Window.wholeSpace.access = .sharedOnly) ∧
    (∃ j, ConflictsWith s j (Window.wholeSpace.translate (AcquireReq.ofBody body).block) .shared) ∧
    (AcquireReq.ofBody body).wait = 0 := by
  refine ⟨serves_of ?_ ?_, ?_, admits_of ?_ ?_, ?_, (claimConflicts_iff ..).1 ?_, ?_⟩ <;> decide +kernel

/-- A HELD and a CONVERTING record. -/
theorem witness_ReleaseFreesHolding :
    let a := request 1 .release 2 [0, 0] nested
    let b := request 4 .release 10 [0, 0] converter
    (Serves .release 1 2 [0, 0] a (taken 1 .release 2 [0, 0] a) ∧ (0 : RecNo).val = fieldAt [0, 0] 0 2 % 128 ∧
      (a.record 0).reuse.toNat = fieldAt [0, 0] 0 2 / 128 ∧ (a.record 0).state = .held 1 blockB .shared 1 none) ∧
    (Serves .release 4 10 [0, 0] b (taken 4 .release 10 [0, 0] b) ∧ (b.record 0).reuse.toNat = fieldAt [0, 0] 0 2 / 128 ∧
      (b.record 0).state = .converting 4 blockD 19 7 (some { ms := 3000, sub := 0 }) none) := by
  refine ⟨⟨serves_of ?_ ?_, ?_, ?_, ?_⟩, ⟨serves_of ?_ ?_, ?_, ?_⟩⟩ <;> decide +kernel

/-- A downgrade, an upgrade that meets nobody, and one that meets a sharer. -/
theorem witness_ConvertChangesMode :
    let down := convertBody 0 0 0
    let up := convertBody 0 1 0
    let wait := convertBody 0 1 3000
    let a := request 0 .convert 5 down watched
    let b := request 1 .convert 5 up nested
    let c := request 4 .convert 7 wait sharers
    (Serves .convert 0 5 down a (taken 0 .convert 5 down a) ∧ (0 : RecNo).val = (ConvertReq.ofBody down).handle % 128 ∧
      (a.record 0).reuse.toNat = (ConvertReq.ofBody down).handle / 128 ∧
      (a.record 0).state = .held 0 blockC .exclusive 12 none ∧ (ConvertReq.ofBody down).mode = 0) ∧
    (Serves .convert 1 5 up b (taken 1 .convert 5 up b) ∧ (b.record 0).reuse.toNat = (ConvertReq.ofBody up).handle / 128 ∧
      (b.record 0).state = .held 1 blockB .shared 1 none ∧ (ConvertReq.ofBody up).mode = 1 ∧
      (∀ j, j ≠ 0 → ¬ HoldsOver b j blockB) ∧ b.tokens ≠ 0xFFFFFFFF) ∧
    (Serves .convert 4 7 wait c (taken 4 .convert 7 wait c) ∧ (c.record 0).reuse.toNat = (ConvertReq.ofBody wait).handle / 128 ∧
      (c.record 0).state = .held 4 blockD .shared 19 none ∧ (ConvertReq.ofBody wait).mode = 1 ∧
      (∃ j, j ≠ 0 ∧ HoldsOver c j blockD) ∧ (∀ j, j ≠ 0 → HoldsOver c j blockD → (c.record j).state.isConverting = false) ∧
      (ConvertReq.ofBody wait).wait ≠ 0) := by
  refine ⟨⟨serves_of ?_ ?_, ?_, ?_, ?_, ?_⟩, ⟨serves_of ?_ ?_, ?_, ?_, ?_, no_other_over_of ?_, ?_⟩,
    ⟨serves_of ?_ ?_, ?_, ?_, ?_, (otherHeldOver_iff ..).1 ?_, no_other_converting_of ?_, ?_⟩⟩ <;> decide +kernel

theorem witness_ConvertUpgradeRefusals :
    let dead := convertBody 1 1 3000
    let quick := convertBody 1 1 0
    let alone := convertBody 0 1 0
    let a := request 5 .convert 8 dead converter
    let b := request 5 .convert 8 quick sharers
    let c := request 1 .convert 8 alone { nested with tokens := 0xFFFFFFFF }
    (Serves .convert 5 8 dead a (taken 5 .convert 8 dead a) ∧ (1 : RecNo).val = (ConvertReq.ofBody dead).handle % 128 ∧
      (a.record 1).reuse.toNat = (ConvertReq.ofBody dead).handle / 128 ∧
      (a.record 1).state = .held 5 blockD .shared 20 none ∧ (ConvertReq.ofBody dead).mode = 1 ∧
      ∃ j, j ≠ 1 ∧ HoldsOver a j blockD ∧ (a.record j).state.isConverting = true) ∧
    (Serves .convert 5 8 quick b (taken 5 .convert 8 quick b) ∧ (b.record 1).state = .held 5 blockD .shared 20 none ∧
      (∃ j, j ≠ 1 ∧ HoldsOver b j blockD) ∧ (∀ j, j ≠ 1 → HoldsOver b j blockD → (b.record j).state.isConverting = false) ∧
      (ConvertReq.ofBody quick).wait = 0) ∧
    (Serves .convert 1 8 alone c (taken 1 .convert 8 alone c) ∧ (c.record 0).state = .held 1 blockB .shared 1 none ∧
      (∀ j, j ≠ 0 → ¬ HoldsOver c j blockB) ∧ c.tokens = 0xFFFFFFFF) := by
  refine ⟨⟨serves_of ?_ ?_, ?_, ?_, ?_, ?_, (otherConvertingOver_iff ..).1 ?_⟩,
    ⟨serves_of ?_ ?_, ?_, (otherHeldOver_iff ..).1 ?_, no_other_converting_of ?_, ?_⟩,
    ⟨serves_of ?_ ?_, ?_, no_other_over_of ?_, ?_⟩⟩ <;> decide +kernel

/-- A watch of D, free now; of C with wait limit 0; of B with room. -/
theorem witness_WatchAnswersOrWaits :
    let free := watchBody blockD 0
    let try' := watchBody blockC 0
    let wait := watchBody blockB 65535
    let a := request 4 .watch 70 free watched
    let b := request 4 .watch 70 try' watched
    let c := request 4 .watch 70 wait watched
    (Serves .watch 4 70 free a (taken 4 .watch 70 free a) ∧ Admits a 4 (WatchReq.ofBody free).block Window.wholeSpace ∧
      ∀ j, ¬ HoldsOver a j (Window.wholeSpace.translate (WatchReq.ofBody free).block)) ∧
    (Serves .watch 4 70 try' b (taken 4 .watch 70 try' b) ∧ Admits b 4 (WatchReq.ofBody try').block Window.wholeSpace ∧
      (∃ j, HoldsOver b j (Window.wholeSpace.translate (WatchReq.ofBody try').block)) ∧ (WatchReq.ofBody try').wait = 0) ∧
    (Serves .watch 4 70 wait c (taken 4 .watch 70 wait c) ∧ Admits c 4 (WatchReq.ofBody wait).block Window.wholeSpace ∧
      (∃ j, HoldsOver c j (Window.wholeSpace.translate (WatchReq.ofBody wait).block)) ∧ (WatchReq.ofBody wait).wait ≠ 0 ∧
      BelowQuota c 4 ∧ LowestFree c 4 ∧ c.watchList.length < 16) := by
  refine ⟨⟨serves_of ?_ ?_, admits_of ?_ ?_, none_over_of ?_⟩,
    ⟨serves_of ?_ ?_, admits_of ?_ ?_, (heldOver_iff ..).1 ?_, ?_⟩,
    ⟨serves_of ?_ ?_, admits_of ?_ ?_, (heldOver_iff ..).1 ?_, ?_, ?_, (lowestFree_eq_some_iff ..).1 ?_, ?_⟩⟩
  all_goals first | decide +kernel | (unfold BelowQuota; decide +kernel)

/-- A query with holdings and one with none. -/
theorem witness_QueryAnswersFourValues :
    let a := request 4 .query 72 (key blockA) watched
    let d := request 4 .query 72 (key blockD) watched
    (Serves .query 4 72 (key blockA) a (taken 4 .query 72 (key blockA) a) ∧ Admits a 4 (queryBlock (key blockA)) Window.wholeSpace ∧
      ∃ j, HoldsOver a j (Window.wholeSpace.translate (queryBlock (key blockA)))) ∧
    (Serves .query 4 72 (key blockD) d (taken 4 .query 72 (key blockD) d) ∧ Admits d 4 (queryBlock (key blockD)) Window.wholeSpace ∧
      ∀ j, ¬ HoldsOver d j (Window.wholeSpace.translate (queryBlock (key blockD)))) := by
  refine ⟨⟨serves_of ?_ ?_, admits_of ?_ ?_, (heldOver_iff ..).1 ?_⟩,
    ⟨serves_of ?_ ?_, admits_of ?_ ?_, none_over_of ?_⟩⟩ <;> decide +kernel

/-! #### Barriers -/

/-- A completion in each mode, a refusal and a wait: host 1 in group 2 after hosts 2 and 3; host 1 in group 5 after host 0;
host 1 first in group 2. -/
theorem witness_ArriveCompletesOrWaits :
    let all := arriveBody 2 65535
    let some := arriveBody 5 0
    let none := arriveBody 2 0
    let a := request 1 .arrive 30 all gathering
    let b := request 1 .arrive 31 some quorum
    let c := request 1 .arrive 30 none groups
    let d := request 1 .arrive 30 all groups
    (Serves .arrive 1 30 all a (taken 1 .arrive 30 all a) ∧ (ArriveReq.ofBody all).group.toNat = (2 : GroupNo).val ∧
      (a.groupDef 2).has 1 = true ∧ (∀ x ∈ (a.group 2).arrivals, x.link ≠ 1) ∧ ((a.group 2).arrivals.map (·.link)).Nodup ∧
      (a.groupDef 2).mode = .all ∧ (∀ m, m ≠ 1 → a.isLive 2 m = true → ∃ x ∈ (a.group 2).arrivals, x.link = m)) ∧
    (Serves .arrive 1 31 some b (taken 1 .arrive 31 some b) ∧ (ArriveReq.ofBody some).group.toNat = (5 : GroupNo).val ∧
      (b.groupDef 5).has 1 = true ∧ (∀ x ∈ (b.group 5).arrivals, x.link ≠ 1) ∧ ((b.group 5).arrivals.map (·.link)).Nodup ∧
      (b.groupDef 5).mode = .quorum ∧ (b.group 5).arrivals.length + 1 = (b.groupDef 5).k) ∧
    (Serves .arrive 1 30 none c (taken 1 .arrive 30 none c) ∧ (c.groupDef 2).has 1 = true ∧ (ArriveReq.ofBody none).wait = 0 ∧
      (c.groupDef 2).mode = .all ∧ c.isLive 2 2 = true ∧ (c.group 2).arrivals = []) ∧
    (Serves .arrive 1 30 all d (taken 1 .arrive 30 all d) ∧ (d.groupDef 2).has 1 = true ∧ (ArriveReq.ofBody all).wait ≠ 0 ∧
      (d.groupDef 2).mode = .all ∧ d.isLive 2 2 = true ∧ (d.group 2).arrivals = []) := by
  refine ⟨⟨serves_of ?_ ?_, ?_, ?_, ?_, ?_, ?_, ?_⟩, ⟨serves_of ?_ ?_, ?_, ?_, ?_, ?_, ?_, ?_⟩,
    ⟨serves_of ?_ ?_, ?_, ?_, ?_, ?_, ?_⟩, ⟨serves_of ?_ ?_, ?_, ?_, ?_, ?_, ?_⟩⟩ <;> decide +kernel

/-! #### Profile and service control -/

/-- Another link turned off, turned on with a new code, and the management link's own code; the lowest and the highest
value of every field. -/
theorem witness_SetLinkWritesSettings :
    let off := linkBody 3 0 0 2 50 1 1
    let on := linkBody 3 1 7 250 60000 128 4
    let own := linkBody 0 1 6 20 5000 32 1
    let disabled : State := { setup with profile := { setup.profile with
      links := setup.profile.links.set 3 { setup.settings 3 with enabled := false } } }
    let a := request 0 .setLink 1 off setup
    let b := request 0 .setLink 1 on disabled
    let c := request 0 .setLink 1 own setup
    let inRange (body : List Byte) : Prop :=
      (SetLinkReq.ofBody body).baud ≤ 7 ∧ 2 ≤ (SetLinkReq.ofBody body).gap ∧ (SetLinkReq.ofBody body).gap ≤ 250 ∧
      50 ≤ (SetLinkReq.ofBody body).lease ∧ (SetLinkReq.ofBody body).lease ≤ 60000 ∧ 1 ≤ (SetLinkReq.ofBody body).quota ∧
      (SetLinkReq.ofBody body).quota ≤ 128 ∧ 1 ≤ (SetLinkReq.ofBody body).weight ∧ (SetLinkReq.ofBody body).weight ≤ 4
    (Serves .setLink 0 1 off a (taken 0 .setLink 1 off a) ∧ (SetLinkReq.ofBody off).link.toNat = (3 : LinkNo).val ∧
      (SetLinkReq.ofBody off).enabled = 0 ∧ (3 : LinkNo) ≠ 0 ∧ inRange off) ∧
    (Serves .setLink 0 1 on b (taken 0 .setLink 1 on b) ∧ (SetLinkReq.ofBody on).enabled = 1 ∧ inRange on ∧
      (b.settings 3).enabled = false) ∧
    (Serves .setLink 0 1 own c (taken 0 .setLink 1 own c) ∧ (SetLinkReq.ofBody own).link.toNat = (0 : LinkNo).val ∧
      (SetLinkReq.ofBody own).enabled = 1 ∧ inRange own) := by
  refine ⟨⟨serves_of ?_ ?_, ?_, ?_, ?_, ?_⟩, ⟨serves_of ?_ ?_, ?_, ?_, ?_⟩, ⟨serves_of ?_ ?_, ?_, ?_, ?_⟩⟩ <;> decide +kernel

theorem witness_SetWindowAndSetGroupWrite :
    let window := windowBody 5 3 0xFF0000 16 0x200000 2
    let whole := windowBody 0 0 0 24 0 0
    let a := request 0 .setWindow 1 window setup
    let b := request 0 .setWindow 1 whole setup
    let six := request 0 .setGroup 1 [7, 0b111111, 1, 6] setup
    let empty := request 0 .setGroup 1 [0, 0, 0, 6] setup
    (Serves .setWindow 0 1 window a (taken 0 .setWindow 1 window a) ∧ (SetWindowReq.ofBody window).link.toNat = (5 : LinkNo).val ∧
      (SetWindowReq.ofBody window).index.toNat = (3 : WindowNo).val ∧ (SetWindowReq.ofBody window).exp ≤ 24 ∧
      (SetWindowReq.ofBody window).localBase % 2 ^ (SetWindowReq.ofBody window).exp = 0 ∧
      (SetWindowReq.ofBody window).globalBase % 2 ^ (SetWindowReq.ofBody window).exp = 0 ∧
      Access.ofCode (SetWindowReq.ofBody window).access = some .full) ∧
    (Serves .setWindow 0 1 whole b (taken 0 .setWindow 1 whole b) ∧ (SetWindowReq.ofBody whole).exp = 24 ∧
      Access.ofCode (SetWindowReq.ofBody whole).access = some .noAccess) ∧
    (Serves .setGroup 0 1 [7, 0b111111, 1, 6] six (taken 0 .setGroup 1 [7, 0b111111, 1, 6] six) ∧
      (0b111111 : Byte) = (0b111111 : BitVec 6).setWidth 8 ∧ GroupMode.ofCode 1 = some .quorum ∧
      6 ≤ memberCount 0b111111) ∧
    (Serves .setGroup 0 1 [0, 0, 0, 6] empty (taken 0 .setGroup 1 [0, 0, 0, 6] empty) ∧
      (0 : Byte) = (0 : BitVec 6).setWidth 8 ∧ GroupMode.ofCode 0 = some .all) := by
  refine ⟨⟨serves_of ?_ ?_, ?_, ?_, ?_, ?_, ?_, ?_⟩, ⟨serves_of ?_ ?_, ?_, ?_⟩, ⟨serves_of ?_ ?_, ?_, ?_, ?_⟩,
    ⟨serves_of ?_ ?_, ?_, ?_⟩⟩ <;> decide +kernel

theorem witness_SetFloorAndStart :
    let a := request 0 .setFloor 1 (toBytes 4 0xFFFFFFFF) setup
    let b := request 0 .start 1 [] setup
    Serves .setFloor 0 1 (toBytes 4 0xFFFFFFFF) a (taken 0 .setFloor 1 (toBytes 4 0xFFFFFFFF) a) ∧
    max a.tokens.toNat (fieldAt (toBytes 4 0xFFFFFFFF) 0 4) = 0xFFFFFFFF ∧ Serves .start 0 1 [] b (taken 0 .start 1 [] b) := by
  refine ⟨serves_of ?_ ?_, ?_, serves_of ?_ ?_⟩ <;> decide +kernel

/-- A RESTART with OPEN and CLOSED sessions. -/
theorem witness_RestartEndsService :
    let s := request 0 .restart 9 [] lapsingSending
    Serves .restart 0 9 [] s (taken 0 .restart 9 [] s) ∧ (s.session 2).isOpen = true ∧ (s.session 0).isOpen = false ∧
    (s.record 0).state ≠ .free ∧ (s.record 127).state = .free := by
  refine ⟨serves_of ?_ ?_, ?_, ?_, ?_, ?_⟩ <;> decide +kernel

/-- Each selector at its highest index, and a selector of 4. -/
theorem witness_ProfileReadsBack :
    let served (x i : Byte) : Prop :=
      Serves .profile 0 1 [x, i] (request 0 .profile 1 [x, i] setup) (taken 0 .profile 1 [x, i] (request 0 .profile 1 [x, i] setup))
    (served 0 5 ∧ (5 : Byte).toNat = (5 : LinkNo).val) ∧
    (served 1 23 ∧ (23 : Byte).toNat = 4 * (5 : LinkNo).val + (3 : Fin 4).val) ∧
    (served 2 7 ∧ (7 : Byte).toNat = (7 : GroupNo).val) ∧ served 3 0 ∧ (served 4 0 ∧ 3 < (4 : Byte).toNat) := by
  refine ⟨⟨serves_of ?_ ?_, ?_⟩, ⟨serves_of ?_ ?_, ?_⟩, ⟨serves_of ?_ ?_, ?_⟩, serves_of ?_ ?_, ⟨serves_of ?_ ?_, ?_⟩⟩ <;>
    decide +kernel

theorem witness_EvictLapsesSession :
    let s := request 0 .evict 1 [2] lapsingSending
    Serves .evict 0 1 [2] s (taken 0 .evict 1 [2] s) ∧ (2 : Byte).toNat = (2 : LinkNo).val ∧ (2 : LinkNo) ≠ 0 ∧
    (s.session 2).isOpen = true := by
  refine ⟨serves_of ?_ ?_, ?_, ?_, ?_⟩ <;> decide +kernel

/-! #### Rules over every command, and invariants -/

/-- The expiry of a lease answers a next state. -/
theorem lease_answers (l : LinkNo) (s : State) :
    exec (.leaseDeadlineExpiry l) s = .next (after (.leaseDeadlineExpiry l) s) := by
  simp only [after, exec, execLeaseDeadlineExpiry]
  split <;> rfl

/-- The lease expiry of section 13.3 is a command of the kind these statements speak of, and moves records, tokens and a
session. -/
theorem witness_RecordsMoveByTable :
    let c := Instr.leaseDeadlineExpiry 2
    (∀ m a, c ≠ .powerOn m a) ∧ c ≠ .uptimeTick ∧ SessionsSound lapsing ∧ exec c lapsing = .next (after c lapsing) ∧
    (lapsing.record 3).state.isWaiting = true ∧ ((after c lapsing).record 3).state.isWaiting = false := by
  refine ⟨fun m a h => (by cases h), fun h => (by cases h), ?_, lease_answers 2 lapsing, by decide +kernel, by decide +kernel⟩
  exact lapsing_sound

theorem witness_TokenCounterNeverDecreases :
    let c := Instr.leaseDeadlineExpiry 2
    (∀ m a, c ≠ .powerOn m a) ∧ exec c lapsing = .next (after c lapsing) ∧ (after c lapsing).tokens = 42 :=
  ⟨witness_RecordsMoveByTable.1, lease_answers 2 lapsing, by decide +kernel⟩

theorem witness_ControlStateChangesOnlyBy :
    let c := Instr.start 0 1 []
    let s := request 0 .start 1 [] setup
    (∀ m a, c ≠ .powerOn m a) ∧ (∀ m a, c ≠ .resetNRelease m a) ∧ c ≠ .resetNAssert ∧ exec c s = .next (after c s) ∧
    (after c s).epoch ≠ s.epoch ∧ (after c s).service ≠ s.service := by
  refine ⟨fun m a h => (by cases h), fun m a h => (by cases h), fun h => (by cases h), ?_, by decide +kernel, by decide +kernel⟩
  simp only [after, exec, execStart, serve]
  split <;> [rfl; (split <;> rfl)]

theorem witness_SessionsMoveByFigure :
    let c := Instr.leaseDeadlineExpiry 2
    (∀ m a, c ≠ .powerOn m a) ∧ c ≠ .resetNAssert ∧ exec c lapsing = .next (after c lapsing) ∧
    (lapsing.session 2).isOpen = true ∧ ((after c lapsing).session 2).isOpen = false :=
  ⟨witness_RecordsMoveByTable.1, fun h => (by cases h), lease_answers 2 lapsing, by decide +kernel, by decide +kernel⟩

/-- The state of section 13.3 with its lease expiry waiting as a command. -/
def beforeLapse : State := { lapsing with pending := [.leaseDeadlineExpiry 2] }

/-- The invariants do not speak of the model's queue. -/
theorem sessionsSound_pending (s : State) (p : List Instr) : SessionsSound { s with pending := p } ↔ SessionsSound s :=
  Iff.rfl

theorem deadlinesInTime_pending (s : State) (p : List Instr) :
    DeadlinesInTime { s with pending := p } ↔ DeadlinesInTime s := by
  rw [deadlinesInTime_iff, deadlinesInTime_iff]; exact Iff.rfl

theorem beforeLapse_steps : ∃ t, step beforeLapse = .next t := by
  exact ⟨_, lease_answers 2 { beforeLapse with pending := [] }⟩

theorem witness_StepKeepsHoldingsCompatible : HoldingsCompatible beforeLapse ∧ ∃ t, step beforeLapse = .next t :=
  ⟨(holdingsCompatible_iff _).2 (by decide +kernel), beforeLapse_steps⟩

theorem witness_StepKeepsTokensSound : TokensSound beforeLapse ∧ ∃ t, step beforeLapse = .next t :=
  ⟨(tokensSound_iff _).2 (by decide +kernel), beforeLapse_steps⟩

theorem beforeLapse_profile : ProfileInRange beforeLapse := by
  unfold ProfileInRange LinkSettingsInRange WindowInRange GroupDefInRange; decide +kernel

theorem beforeLapse_setup : SetupIsEmpty beforeLapse := by
  unfold SetupIsEmpty; decide +kernel

theorem beforeLapse_lists : ListsMatch beforeLapse := by
  unfold ListsMatch; decide +kernel

theorem witness_StepKeepsGeometrySound : GeometrySound beforeLapse ∧ ∃ t, step beforeLapse = .next t :=
  ⟨⟨beforeLapse_profile, (blocksWellFormed_iff _).2 (by decide +kernel)⟩, beforeLapse_steps⟩

theorem witness_StepKeepsLimitsSound : LimitsSound beforeLapse ∧ ∃ t, step beforeLapse = .next t := by
  refine ⟨⟨beforeLapse_setup, beforeLapse_profile, beforeLapse_lists, ?_, ?_, ?_⟩, beforeLapse_steps⟩
  · unfold CountsMatch; decide +kernel
  · unfold LimitsKept; decide +kernel
  · unfold QueuesWithinLimits; decide +kernel

theorem witness_StepKeepsSessionsSound : SessionsSound beforeLapse ∧ ∃ t, step beforeLapse = .next t :=
  ⟨(sessionsSound_pending lapsing _).2 lapsing_sound, beforeLapse_steps⟩

theorem witness_StepKeepsScanSettled : ScanSettled beforeLapse ∧ ∃ t, step beforeLapse = .next t :=
  ⟨⟨beforeLapse_lists, (nothingUnblocked_iff _).2 (by decide +kernel)⟩, beforeLapse_steps⟩

/-- A tick answers a next state. -/
theorem tick_answers (s : State) : ∃ t, step { s with pending := [.uptimeTick] } = .next t := by
  simp only [step, exec, execUptimeTick]
  split <;> exact ⟨_, rfl⟩

/-- With the next tick waiting as a command, which the lease of section 13.3 forces to bring its expiry. -/
theorem witness_StepKeepsDeadlinesInTime :
    DeadlinesInTime { latest with pending := [.uptimeTick] } ∧ ∃ t, step { latest with pending := [.uptimeTick] } = .next t :=
  ⟨(deadlinesInTime_pending latest _).2 latest_in_time, tick_answers latest⟩

end Sys2Proof.Tests
end

section
/-! PROOFS. Acquisition and the wait list: a try that meets a conflict (R37) and the expiry of a lock wait (R51). -/

namespace Sys2Proof.Machine

open Sys2Proof.Safety

/-! ### What taking a frame leaves as it was

Taking a frame writes one intake queue and the rotation (R141, R152), so the checks of a request read the same profile and
the same pool before and after it. -/

/-- Windows are the profile's, which the dispatcher does not write. -/
theorem admits_of_takesFrame {l k : LinkNo} {f : Frame} {s t : State} {b : Block} {w : Window} (taken : TakesFrame l f s t)
    (admits : Admits s k b w) : Admits t k b w := by
  obtain ⟨rest, turn, -, -, -, -, rfl⟩ := taken
  exact admits

/-- Claims are the records', which the dispatcher does not write. -/
theorem conflictsWith_of_takesFrame {l : LinkNo} {f : Frame} {s t : State} {j : RecNo} {b : Block} {m : Mode}
    (taken : TakesFrame l f s t) (conflict : ConflictsWith s j b m) : ConflictsWith t j b m := by
  obtain ⟨rest, turn, -, -, -, -, rfl⟩ := taken
  exact conflict

/-! ### ACQUIRE (R34, R35) -/

/-- An admitted ACQUIRE that conflicts is decided by its wait limit alone: refused at 0 (R37), else it goes to the wait list
(R38). -/
theorem acquire_of_conflict (l : LinkNo) (tag : Byte) (body : List Byte) (m : Mode) (w : Window) (s : State)
    (code : Mode.ofCode (AcquireReq.ofBody body).mode = some m) (admits : Admits s l (AcquireReq.ofBody body).block w)
    (access : ¬ (m = .exclusive ∧ w.access = .sharedOnly))
    (conflict : ∃ j, ConflictsWith s j (w.translate (AcquireReq.ofBody body).block) m) :
    acquire l tag body s =
      if (AcquireReq.ofBody body).wait = 0 then refuse l tag .conflict 0 s
      else enterWaitList l tag (w.translate (AcquireReq.ofBody body).block) m (AcquireReq.ofBody body).wait
        (AcquireReq.ofBody body).hold s := by
  have admitted := admitAcquire_eq s l _ _ m w admits code access
  have conflicts := (claimConflicts_iff s _ m).2 conflict
  simp only [acquire, admitted, conflicts, ↓reduceIte]

/-! ### Expiries -/

/-- An armed deadline that has fallen due may expire while RESET_N is high (R126, R158). -/
theorem expires_of_reached (s : State) (d : Instant) (running : s.resetHeld = false) (due : s.reached d = true) :
    s.expires (some d) = true := by
  simp [State.expires, running, due]

/-- A WAITING record's hold reservation, when it has one, returns to its owner's free entries (R150). -/
theorem returnHold_waiting (o : LinkNo) (b : Block) (m : Mode) (tag : Byte) (w : Option Instant) (h : Option Nat)
    (s : State) :
    returnHold (.waiting o b m tag w h) s =
      s.putLink o { s.link o with reserved := (s.link o).reserved - h.isSome.toNat } := by
  cases h with
  | none => exact (s.putLink_link_self o).symm
  | some limit => rfl

/-- The end of a lock wait: the record is FREE, the notice fills the tag's reservation, the tag is closed and a hold
reservation has returned (R51, R53 steps 1 to 4). -/
theorem endLockWait_eq (i : RecNo) (notice : Half → Message) (o : LinkNo) (b : Block) (m : Mode) (tag : Byte)
    (w : Option Instant) (h : Option Nat) (s : State) (state : (s.record i).state = .waiting o b m tag w h) :
    endLockWait i notice s =
      { s with
        records := s.records.set i (freed (s.record i))
        waitList := s.waitList.filter (· ≠ i)
        watchList := s.watchList.filter (· ≠ i)
        sessions := s.sessions.set o { s.session o with
          tags := (s.session o).tags.filter (·.tag ≠ tag), owned := (s.session o).owned - 1 }
        links := s.links.set o { s.link o with
          outbound := (s.link o).outbound ++ [{ tag := tag, msg := notice (s.handle i), adopts := false }]
          reserved := (s.link o).reserved - 1 - h.isSome.toNat } } := by
  have owner : (s.record i).state.owner = some o := by rw [state]; rfl
  have ended : endLockWait i notice s =
      returnHold (s.record i).state (closeTag o tag (notice (s.handle i)) (freeRecord i s)) := by
    simp only [endLockWait, state]
  rw [ended, freeRecord_eq i s o owner, closeTag_eq, state, returnHold_waiting]
  simp [State.putLink, State.session, State.link, Vector.get_set_fin]

/-- The expiry of a due lock wait ends the wait with TIMED_OUT, and the scan follows (R51). -/
theorem execLockWaitDeadlineExpiry_of_due (i : RecNo) (o : LinkNo) (b : Block) (m : Mode) (tag : Byte) (d : Instant)
    (h : Option Nat) (s : State) (running : s.resetHeld = false)
    (state : (s.record i).state = .waiting o b m tag (some d) h) (due : s.reached d = true) :
    execLockWaitDeadlineExpiry i s = .next (grantScan (endLockWait i .timedOutRecord s)) := by
  have expires : s.expires (RecState.waiting o b m tag (some d) h).waitDeadline = true :=
    expires_of_reached s d running due
  simp only [execLockWaitDeadlineExpiry, expireWait, state, RecState.isWaiting, expires, Bool.and_self, ↓reduceIte]

/-- Settles O10: the expiry is due, so the wait ends with TIMED_OUT and the grant scan runs. -/
theorem lockWaitExpiryFreesRecord : Obligations.LockWaitExpiryFreesRecord := by
  intro i o b m tag d h s running state due
  rw [← endLockWait_eq i .timedOutRecord o b m tag (some d) h s state]
  exact execLockWaitDeadlineExpiry_of_due i o b m tag d h s running state due

/-- Settles O36: the state after the frame is taken admits the same claim and has the same conflict, and the room test is
never reached. -/
theorem acquireTryConflictIsRefused : Obligations.AcquireTryConflictIsRefused := by
  rintro l tag body _ m w s t serves rfl code admits access ⟨j, conflict⟩ wait
  have taken := serves.1
  have decided := acquire_of_conflict l tag body m w t code (admits_of_takesFrame taken admits) access
    ⟨j, conflictsWith_of_takesFrame taken conflict⟩
  calc exec (.acquire l tag body) s
      = .next (acquire l tag body t) := serve_eq .acquire l tag body _ s t serves
    _ = .next (withReply l tag (.refused .conflict 0) t) := by rw [decided, if_pos wait]; rfl

end Sys2Proof.Machine
end

section
/-! PROOFS. Conversion, release and revocation: the expiry of a conversion's wait (R66), the expiry of a hold deadline (R70,
R71), RELEASE (R57, R58) and the upgrades that are refused (R31, R62, R63). -/

namespace Sys2Proof.Machine

open Sys2Proof.Safety

/-! ### What taking a frame leaves as it was -/

/-- Records, sessions and the token counter are not the dispatcher's to write (R141, R152). -/
theorem pool_of_takesFrame {l : LinkNo} {f : Frame} {s t : State} (taken : TakesFrame l f s t) :
    t.record = s.record ∧ t.session = s.session ∧ t.tokens = s.tokens := by
  obtain ⟨rest, turn, -, -, -, -, rfl⟩ := taken
  exact ⟨rfl, rfl, rfl⟩

/-- So a record's handle is the same before and after (R21). -/
theorem handle_of_takesFrame {l : LinkNo} {f : Frame} {s t : State} (taken : TakesFrame l f s t) (i : RecNo) :
    t.handle i = s.handle i := by
  obtain ⟨record, -, -⟩ := pool_of_takesFrame taken
  rw [State.handle, State.handle, record]

/-- Taking a frame empties an intake entry and leaves every outbound account as it is (R141, R148). -/
theorem account_of_takesFrame {l : LinkNo} {f : Frame} {s t : State} (taken : TakesFrame l f s t) (k : LinkNo) :
    (t.link k).outbound = (s.link k).outbound ∧ (t.link k).reserved = (s.link k).reserved := by
  obtain ⟨rest, turn, -, -, -, -, rfl⟩ := taken
  by_cases same : l = k <;> simp [State.link, Vector.get_set_fin, same]

/-- A handle that is valid before the frame is taken names the same record after it (R22). -/
theorem named_of_takesFrame {l k : LinkNo} {f : Frame} {s t : State} {handle : Nat} {i : RecNo}
    (taken : TakesFrame l f s t) (number : i.val = handle % 128) (owner : (s.record i).state.owner = some k)
    (reuse : (s.record i).reuse.toNat = handle / 128) : t.named k handle = some i := by
  obtain ⟨record, -, -⟩ := pool_of_takesFrame taken
  rw [named_eq_some_iff, record]
  exact ⟨number, owner, reuse⟩

/-- Holdings are the records', which the dispatcher does not write. -/
theorem holdsOver_of_takesFrame {l : LinkNo} {f : Frame} {s t : State} (taken : TakesFrame l f s t) (j : RecNo) (b : Block) :
    HoldsOver t j b ↔ HoldsOver s j b := by
  obtain ⟨record, -, -⟩ := pool_of_takesFrame taken
  rw [HoldsOver, HoldsOver, record]

/-! ### Holdings that end -/

/-- A record with a token is HELD or CONVERTING (Table 2-1). -/
theorem RecState.holding_cases {x : RecState} {token : Word} (holding : x.token = some token) :
    (∃ o b m h, x = .held o b m token h) ∨ ∃ o b g w h, x = .converting o b token g w h := by
  cases x with
  | held o b m t h =>
    obtain rfl : t = token := Option.some.inj holding
    exact .inl ⟨o, b, m, h, rfl⟩
  | converting o b t g w h =>
    obtain rfl : t = token := Option.some.inj holding
    exact .inr ⟨o, b, g, w, h, rfl⟩
  | free | waiting | watching => cases holding

/-- The hold reservation of an owned record, when it has one, returns to its owner's free entries (R150). -/
theorem returnHold_eq (x : RecState) (o : LinkNo) (s : State) (owner : x.owner = some o) :
    returnHold x s = s.putLink o { s.link o with reserved := (s.link o).reserved - x.holdReserved.toNat } := by
  simp only [returnHold, owner]
  cases x.holdReserved with
  | false => exact (s.putLink_link_self o).symm
  | true => rfl

/-- A holding freed by its owner: the record is FREE and its hold reservation has returned (R57 steps 2 and 3). -/
theorem freeHolding_eq (i : RecNo) (o : LinkNo) (s : State) (owner : (s.record i).state.owner = some o) :
    freeHolding i s =
      { s with
        records := s.records.set i (freed (s.record i))
        waitList := s.waitList.filter (· ≠ i)
        watchList := s.watchList.filter (· ≠ i)
        sessions := s.sessions.set o { s.session o with owned := (s.session o).owned - 1 }
        links := s.links.set o { s.link o with
          reserved := (s.link o).reserved - (s.record i).state.holdReserved.toNat } } := by
  rw [freeHolding, returnHold_eq _ o _ owner, freeRecord_eq i s o owner]
  rfl

/-- A holding revoked: the record is FREE and REVOKED stands in its hold reservation (R70 steps 1 to 3). -/
theorem revoke_eq (i : RecNo) (o : LinkNo) (token : Word) (s : State) (owner : (s.record i).state.owner = some o)
    (holding : (s.record i).state.token = some token) :
    revoke i s =
      { s with
        records := s.records.set i (freed (s.record i))
        waitList := s.waitList.filter (· ≠ i)
        watchList := s.watchList.filter (· ≠ i)
        sessions := s.sessions.set o { s.session o with owned := (s.session o).owned - 1 }
        links := s.links.set o { s.link o with
          outbound := (s.link o).outbound ++ [{ tag := 0, msg := .revoked (s.handle i) token, adopts := false }]
          reserved := (s.link o).reserved - 1 } } := by
  have queued : revoke i s = queueReserved o 0 (.revoked (s.handle i) token) (freeRecord i s) := by
    rcases RecState.holding_cases holding with ⟨p, b, m, h, state⟩ | ⟨p, b, g, w, h, state⟩
    all_goals
      obtain rfl : p = o := by rw [state] at owner; exact Option.some.inj owner
      simp only [revoke, state]
  rw [queued, freeRecord_eq i s o owner]
  rfl

/-! ### A pending conversion concluded first (R58 step 1, R71 step 1) -/

/-- A HELD record has no conversion to conclude. -/
theorem concludeConversion_held (i : RecNo) (o : LinkNo) (b : Block) (m : Mode) (token : Word) (h : Option Hold) (s : State)
    (state : (s.record i).state = .held o b m token h) : concludeConversion i s = s := by
  simp only [concludeConversion, state]

/-- A CONVERTING record's tag closes with CANCELLED, the record being left for the free that follows. -/
theorem concludeConversion_converting (i : RecNo) (o : LinkNo) (b : Block) (token : Word) (tag : Byte) (w : Option Instant)
    (h : Option Hold) (s : State) (state : (s.record i).state = .converting o b token tag w h) :
    concludeConversion i s = closeTag o tag (.cancelledRecord (s.handle i)) s := by
  simp only [concludeConversion, state]

/-- Closing a tag leaves every record as it is (R121). -/
@[simp] theorem record_closeTag (l : LinkNo) (tag : Byte) (m : Message) (s : State) (j : RecNo) :
    (closeTag l tag m s).record j = s.record j := rfl

/-- The end of a CONVERTING record by its owner: CANCELLED fills the tag's reservation before the holding is freed (R58). -/
theorem freeHolding_closeTag (i : RecNo) (o : LinkNo) (tag : Byte) (m : Message) (s : State)
    (owner : (s.record i).state.owner = some o) :
    freeHolding i (closeTag o tag m s) =
      { s with
        records := s.records.set i (freed (s.record i))
        waitList := s.waitList.filter (· ≠ i)
        watchList := s.watchList.filter (· ≠ i)
        sessions := s.sessions.set o { s.session o with
          tags := (s.session o).tags.filter (·.tag ≠ tag), owned := (s.session o).owned - 1 }
        links := s.links.set o { s.link o with
          outbound := (s.link o).outbound ++ [{ tag := tag, msg := m, adopts := false }]
          reserved := (s.link o).reserved - 1 - (s.record i).state.holdReserved.toNat } } := by
  rw [freeHolding_eq i o (closeTag o tag m s) owner, record_closeTag, closeTag_eq]
  simp [State.session, State.link, Vector.get_set_fin]

/-- The revocation of a CONVERTING record: CANCELLED fills the tag's reservation before REVOKED fills the hold's (R71). -/
theorem revoke_closeTag (i : RecNo) (o : LinkNo) (tag : Byte) (m : Message) (token : Word) (s : State)
    (owner : (s.record i).state.owner = some o) (holding : (s.record i).state.token = some token) :
    revoke i (closeTag o tag m s) =
      { s with
        records := s.records.set i (freed (s.record i))
        waitList := s.waitList.filter (· ≠ i)
        watchList := s.watchList.filter (· ≠ i)
        sessions := s.sessions.set o { s.session o with
          tags := (s.session o).tags.filter (·.tag ≠ tag), owned := (s.session o).owned - 1 }
        links := s.links.set o { s.link o with
          outbound := (s.link o).outbound ++
            [{ tag := tag, msg := m, adopts := false },
             { tag := 0, msg := .revoked (s.handle i) token, adopts := false }]
          reserved := (s.link o).reserved - 1 - 1 } } := by
  rw [revoke_eq i o token (closeTag o tag m s) owner holding, State.handle, record_closeTag, closeTag_eq]
  simp [State.session, State.link, State.handle, Vector.get_set_fin]

/-! ### Expiries (R66, R70, R71) -/

/-- The expiry of a due conversion's wait ends the conversion with TIMED_OUT, and the scan follows (R66). -/
theorem execConvertWaitDeadlineExpiry_of_due (i : RecNo) (o : LinkNo) (b : Block) (token : Word) (tag : Byte) (d : Instant)
    (h : Option Hold) (s : State) (running : s.resetHeld = false)
    (state : (s.record i).state = .converting o b token tag (some d) h) (due : s.reached d = true) :
    execConvertWaitDeadlineExpiry i s = .next (grantScan (endConversion i .timedOutRecord s)) := by
  have expires : s.expires (RecState.converting o b token tag (some d) h).waitDeadline = true :=
    expires_of_reached s d running due
  simp only [execConvertWaitDeadlineExpiry, expireWait, state, RecState.isConverting, expires, Bool.and_self, ↓reduceIte]

/-- Settles O11: the expiry is due, so the conversion falls back with TIMED_OUT and the grant scan runs. -/
theorem convertWaitExpiryFallsBack : Obligations.ConvertWaitExpiryFallsBack := by
  intro i o b token tag d h s running state due
  rw [← endConversion_eq i .timedOutRecord o b token tag (some d) h s state]
  exact execConvertWaitDeadlineExpiry_of_due i o b token tag d h s running state due

/-- The expiry of a due hold deadline concludes a pending conversion, revokes and scans (R70, R71). -/
theorem execHoldDeadlineExpiry_of_due (i : RecNo) (d : Instant) (s : State) (running : s.resetHeld = false)
    (deadline : (s.record i).state.holdDeadline = some d) (due : s.reached d = true) :
    execHoldDeadlineExpiry i s = .next (grantScan (revoke i (concludeConversion i s))) := by
  have expires : s.expires (s.record i).state.holdDeadline = true := by
    rw [deadline]; exact expires_of_reached s d running due
  rw [execHoldDeadlineExpiry, if_pos expires, expireHold]

/-- Settles O13: the deadline is due, so the holding is revoked and the scan runs; only a CONVERTING record has a conversion
to conclude before that. -/
theorem holdExpiryRevokes : Obligations.HoldExpiryRevokes := by
  intro i o b token limit d s running due
  constructor
  · intro m state
    have owner : (s.record i).state.owner = some o := by rw [state]; rfl
    have holding : (s.record i).state.token = some token := by rw [state]; rfl
    have deadline : (s.record i).state.holdDeadline = some d := by rw [state]; rfl
    rw [← revoke_eq i o token s owner holding]
    calc exec (.holdDeadlineExpiry i) s
        = .next (grantScan (revoke i (concludeConversion i s))) := execHoldDeadlineExpiry_of_due i d s running deadline due
      _ = .next (grantScan (revoke i s)) := by rw [concludeConversion_held i o b m token _ s state]
  · intro tag w state
    have owner : (s.record i).state.owner = some o := by rw [state]; rfl
    have holding : (s.record i).state.token = some token := by rw [state]; rfl
    have deadline : (s.record i).state.holdDeadline = some d := by rw [state]; rfl
    rw [← revoke_closeTag i o tag (.cancelledRecord (s.handle i)) token s owner holding,
      ← concludeConversion_converting i o b token tag w _ s state]
    exact execHoldDeadlineExpiry_of_due i d s running deadline due

/-! ### RELEASE (R57, R58) -/

/-- The release of a holding: a pending conversion is concluded, the holding is freed, the scan runs, then DONE is queued
with the released token (R57, R58). -/
theorem release_of_holding (l : LinkNo) (tag : Byte) (body : List Byte) (i : RecNo) (token : Word) (s : State)
    (named : s.named l (fieldAt body 0 2) = some i) (holding : (s.record i).state.token = some token) :
    release l tag body s =
      withReply l tag (.doneRelease (s.handle i) token) (grantScan (freeHolding i (concludeConversion i s))) := by
  rcases RecState.holding_cases holding with ⟨o, b, m, h, state⟩ | ⟨o, b, g, w, h, state⟩
  all_goals simp only [release, named, state, reply_eq]

/-- A served RELEASE of a holding of the link, in terms of the state once the frame is taken (R56 to R58). -/
theorem execRelease_of_holding (l : LinkNo) (tag : Byte) (body : List Byte) (i : RecNo) (token : Word) (s t : State)
    (serves : Serves .release l tag body s t) (number : i.val = fieldAt body 0 2 % 128)
    (reuse : (s.record i).reuse.toNat = fieldAt body 0 2 / 128) (owner : (s.record i).state.owner = some l)
    (holding : (s.record i).state.token = some token) :
    exec (.release l tag body) s = .next
      (withReply l tag (.doneRelease (s.handle i) token) (grantScan (freeHolding i (concludeConversion i t)))) := by
  obtain ⟨record, -, -⟩ := pool_of_takesFrame serves.1
  have named := named_of_takesFrame serves.1 number owner reuse
  calc exec (.release l tag body) s
      = .next (release l tag body t) := serve_eq .release l tag body _ s t serves
    _ = .next (withReply l tag (.doneRelease (s.handle i) token) (grantScan (freeHolding i (concludeConversion i t)))) := by
        rw [release_of_holding l tag body i token t named (by rw [record]; exact holding),
          handle_of_takesFrame serves.1]

/-- Settles O37: the freed record, count and reservation are those of the state before the frame is taken, since taking it
writes none of them; only a CONVERTING record has a conversion to conclude. -/
theorem releaseFreesHolding : Obligations.ReleaseFreesHolding := by
  rintro l tag body _ i b token h s t serves rfl number reuse
  obtain ⟨record, session, -⟩ := pool_of_takesFrame serves.1
  obtain ⟨outbound, reserved⟩ := account_of_takesFrame serves.1 l
  constructor
  · intro m state
    have owner : (s.record i).state.owner = some l := by rw [state]; rfl
    have state' : (t.record i).state = .held l b m token h := by rw [record]; exact state
    rw [execRelease_of_holding l tag body i token s t serves number reuse owner (by rw [state]; rfl),
      concludeConversion_held i l b m token h t state', freeHolding_eq i l t (by rw [record]; exact owner), state']
    rw [record, session, reserved]
    obtain ⟨rest, turn, -, -, -, -, rfl⟩ := serves.1
    rfl
  · intro g w state
    have owner : (s.record i).state.owner = some l := by rw [state]; rfl
    have state' : (t.record i).state = .converting l b token g w h := by rw [record]; exact state
    rw [execRelease_of_holding l tag body i token s t serves number reuse owner (by rw [state]; rfl),
      concludeConversion_converting i l b token g w h t state',
      freeHolding_closeTag i l g _ t (by rw [record]; exact owner), state']
    rw [handle_of_takesFrame serves.1, record, session, outbound, reserved]
    obtain ⟨rest, turn, -, -, -, -, rfl⟩ := serves.1
    rfl

/-! ### Upgrades that are refused (R31, R62, R63) -/

/-- A CONVERT to EXCLUSIVE of a HELD SHARED record is an upgrade (R61 to R64). -/
theorem convert_of_upgrade (l : LinkNo) (tag : Byte) (body : List Byte) (i : RecNo) (o : LinkNo) (b : Block) (token : Word)
    (h : Option Hold) (s : State) (named : s.named l (ConvertReq.ofBody body).handle = some i)
    (state : (s.record i).state = .held o b .shared token h) (mode : (ConvertReq.ofBody body).mode = 1) :
    convert l tag body s = upgrade l tag i o b token h (ConvertReq.ofBody body).wait s := by
  have code : Mode.ofCode 1 = some .exclusive := rfl
  simp only [convert, named, mode, code, state, reduceCtorEq, ↓reduceIte]

/-- An upgrade that meets a CONVERTING record is refused DEADLOCK, whatever the wait limit (R62). -/
theorem upgrade_of_converting (l : LinkNo) (tag : Byte) (i : RecNo) (o : LinkNo) (b : Block) (token : Word)
    (h : Option Hold) (wait : Nat) (s : State)
    (converting : ∃ j, j ≠ i ∧ HoldsOver s j b ∧ (s.record j).state.isConverting = true) :
    upgrade l tag i o b token h wait s = withReply l tag (.refused .deadlock 0) s := by
  have held : s.otherHeldOver i b = true :=
    (otherHeldOver_iff s i b).2 (converting.imp fun j ⟨other, overlaps, _⟩ => ⟨other, overlaps⟩)
  rw [upgrade, if_pos held, if_pos ((otherConvertingOver_iff s i b).2 converting)]
  rfl

/-- An upgrade that meets holdings, none of them CONVERTING, is refused CONFLICT at wait limit 0 (R63). -/
theorem upgrade_of_sharers (l : LinkNo) (tag : Byte) (i : RecNo) (o : LinkNo) (b : Block) (token : Word)
    (h : Option Hold) (s : State) (held : ∃ j, j ≠ i ∧ HoldsOver s j b)
    (settled : ∀ j, j ≠ i → HoldsOver s j b → (s.record j).state.isConverting = false) :
    upgrade l tag i o b token h 0 s = withReply l tag (.refused .conflict 0) s := by
  have none_converting : ¬ s.otherConvertingOver i b = true := by
    rw [otherConvertingOver_iff]
    rintro ⟨j, other, overlaps, converting⟩
    exact Bool.false_ne_true ((settled j other overlaps).symm.trans converting)
  rw [upgrade, if_pos ((otherHeldOver_iff s i b).2 held), if_neg none_converting, if_pos rfl]
  rfl

/-- An upgrade that meets no holding is refused TOKENS_SPENT at the counter's maximum (R31). -/
theorem upgrade_of_spent (l : LinkNo) (tag : Byte) (i : RecNo) (o : LinkNo) (b : Block) (token : Word)
    (h : Option Hold) (wait : Nat) (s : State) (alone : ∀ j, j ≠ i → ¬ HoldsOver s j b) (spent : s.tokens = 0xFFFFFFFF) :
    upgrade l tag i o b token h wait s = withReply l tag (.refused .tokensSpent 0) s := by
  have none_held : ¬ s.otherHeldOver i b = true := by
    rw [otherHeldOver_iff]
    rintro ⟨j, other, overlaps⟩
    exact alone j other overlaps
  have maximum : s.tokensSpent = true := decide_eq_true spent
  rw [upgrade, if_neg none_held, if_pos maximum]
  rfl

/-- Settles O39: the state after the frame is taken has the same holdings and the same counter, and its upgrade is refused as
each clause says. -/
theorem convertUpgradeRefusals : Obligations.ConvertUpgradeRefusals := by
  rintro l tag body _ i b token h s t serves rfl number reuse state mode
  obtain ⟨record, -, tokens⟩ := pool_of_takesFrame serves.1
  have holdings := holdsOver_of_takesFrame serves.1
  have named := named_of_takesFrame (k := l) serves.1 number (by rw [state]; rfl) reuse
  have upgraded : exec (.convert l tag body) s =
      .next (upgrade l tag i l b token h (ConvertReq.ofBody body).wait t) := by
    rw [← convert_of_upgrade l tag body i l b token h t named (by rw [record]; exact state) mode]
    exact serve_eq .convert l tag body _ s t serves
  simp only [upgraded, ← record, ← tokens, ← holdings]
  refine ⟨fun converting => ?_, fun held settled wait => ?_, fun alone spent => ?_⟩
  · rw [upgrade_of_converting l tag i l b token h _ t converting]
  · rw [wait, upgrade_of_sharers l tag i l b token h t held settled]
  · rw [upgrade_of_spent l tag i l b token h _ t alone spent]

end Sys2Proof.Machine
end

section
/-! PROOFS. Watches: a grant scan in a state that R50 describes changes nothing, a watch that ends keeps R50, and the expiry
of a watch (R83). -/

namespace Sys2Proof.Machine

open Sys2Proof.Safety

/-! ### The grant scan of a settled state (R50)

In such a state every record that a phase examines is still blocked, or the tokens are spent, so each phase passes over all
of them. -/

/-- The converter phase grants nothing. -/
theorem converterPhase_of_nothingUnblocked (s : State) (settled : NothingUnblocked s) : converterPhase s = s := by
  obtain ⟨-, unlessSpent⟩ := settled
  refine converterPhase_induct (· = s) ?_ s rfl
  rintro t i o b token tag w hold rfl state unspent open_
  obtain ⟨blocked, -⟩ := unlessSpent unspent
  exact absurd (blocked i o b token tag w hold state) (by rw [open_]; exact Bool.false_ne_true)

/-- The watch phase fires nothing. -/
theorem watchPhase_of_nothingUnblocked (s : State) (settled : NothingUnblocked s) : watchPhase s = s := by
  obtain ⟨watched, -⟩ := settled
  refine watchPhase_induct (· = s) ?_ s rfl
  rintro t i o b tag w rfl state quiet
  exact absurd (watched i o b tag w state) (by rw [quiet]; exact Bool.false_ne_true)

/-- A WAITING record has the fields of Table 2-1. -/
theorem RecState.waiting_cases {x : RecState} (waiting : x.isWaiting = true) :
    ∃ o b m tag w limit, x = .waiting o b m tag w limit := by
  cases x with
  | waiting o b m tag w limit => exact ⟨o, b, m, tag, w, limit, rfl⟩
  | free | held | converting | watching => cases waiting

/-- The wait-list phase grants nothing, whatever part of the list it has passed over. -/
theorem waitPhase_of_scanSettled (s : State) (settled : ScanSettled s) (toExamine earlier : List RecNo)
    (order : s.waitList = earlier ++ toExamine) : waitPhase toExamine earlier s = s := by
  induction toExamine generalizing earlier with
  | nil => rfl
  | cons i rest ih =>
    obtain ⟨⟨-, -, waits, -⟩, -, unlessSpent⟩ := settled
    obtain ⟨o, b, m, tag, w, limit, state⟩ := RecState.waiting_cases ((waits i).1 (by simp [order]))
    have blocked : (s.tokensSpent || s.heldAgainst b m || s.earlierAgainst earlier b m) = true := by
      cases spent : s.tokensSpent with
      | true => simp
      | false =>
        obtain ⟨-, conflict⟩ := unlessSpent spent
        simpa using conflict earlier i rest o b m tag w limit order state
    simp only [waitPhase, state, blocked, ↓reduceIte]
    exact ih (earlier ++ [i]) (by simp [order])

/-- A grant scan changes nothing in a state that R50 describes. -/
theorem grantScan_of_scanSettled (s : State) (settled : ScanSettled s) : grantScan s = s := by
  have unblocked : NothingUnblocked s := settled.2
  rw [grantScan, converterPhase_of_nothingUnblocked s unblocked,
    waitPhase_of_scanSettled s settled s.waitList [] rfl, watchPhase_of_nothingUnblocked s unblocked]

/-! ### Pools with the same claims

What blocks a record is a holding or a WAITING claim, so pools that agree on both block alike. -/

/-- The two pools have the same holdings and the same WAITING claims, record by record. -/
structure SameClaims (s t : State) : Prop where
  holding : ∀ j, (t.record j).state.holding = (s.record j).state.holding
  waiting : ∀ j, (t.record j).state.isWaiting = (s.record j).state.isWaiting
  claim : ∀ j, (t.record j).state.claim = (s.record j).state.claim

/-- R45's test against the holdings, record by record. -/
theorem heldAgainst_iff (s : State) (b : Block) (m : Mode) :
    s.heldAgainst b m = true ↔ ∃ j, (s.record j).state.holdsAgainst b m = true := by
  rw [State.heldAgainst, Vector.any_toList_iff]
  rfl

theorem SameClaims.heldOver {s t : State} (same : SameClaims s t) (b : Block) : t.heldOver b = s.heldOver b := by
  rw [Bool.eq_iff_iff]
  simp only [heldOver_iff, HoldsOver, holdingBlock, same.holding]

theorem SameClaims.otherHeldOver {s t : State} (same : SameClaims s t) (i : RecNo) (b : Block) :
    t.otherHeldOver i b = s.otherHeldOver i b := by
  rw [Bool.eq_iff_iff]
  simp only [otherHeldOver_iff, HoldsOver, holdingBlock, same.holding]

theorem SameClaims.heldAgainst {s t : State} (same : SameClaims s t) (b : Block) (m : Mode) :
    t.heldAgainst b m = s.heldAgainst b m := by
  rw [Bool.eq_iff_iff]
  simp only [heldAgainst_iff, RecState.holdsAgainst, same.holding]

theorem SameClaims.earlierAgainst {s t : State} (same : SameClaims s t) (earlier : List RecNo) (b : Block) (m : Mode) :
    t.earlierAgainst earlier b m = s.earlierAgainst earlier b m := by
  simp only [State.earlierAgainst, RecState.blocks, same.waiting, same.claim]

/-! ### Freeing a record (R19) -/

/-- Freeing a record in use writes that record and no other. -/
theorem record_freeRecord (i : RecNo) (s : State) (l : LinkNo) (owner : (s.record i).state.owner = some l) (j : RecNo) :
    (freeRecord i s).record j = if i = j then freed (s.record i) else s.record j := by
  rw [freeRecord_eq i s l owner]
  exact Vector.get_set_fin ..

/-- So a record that is not FREE afterwards is as it was before. -/
theorem record_freeRecord_of_used {i j : RecNo} {s : State} {l : LinkNo} (owner : (s.record i).state.owner = some l)
    (used : ((freeRecord i s).record j).state ≠ .free) : (freeRecord i s).record j = s.record j := by
  rw [record_freeRecord i s l owner] at used ⊢
  split at used
  · exact absurd rfl used
  · rename_i other; exact if_neg other

/-- A freed record leaves its list, and the lists match the pool as before (R26, R27). -/
theorem listsMatch_freeRecord (i : RecNo) (s : State) (l : LinkNo) (owner : (s.record i).state.owner = some l)
    (lists : ListsMatch s) : ListsMatch (freeRecord i s) := by
  obtain ⟨waitNodup, watchNodup, waits, watches⟩ := lists
  have record := record_freeRecord i s l owner
  have waitList : (freeRecord i s).waitList = s.waitList.filter (· ≠ i) := by rw [freeRecord_eq i s l owner]
  have watchList : (freeRecord i s).watchList = s.watchList.filter (· ≠ i) := by rw [freeRecord_eq i s l owner]
  refine ⟨waitList ▸ waitNodup.filter _, watchList ▸ watchNodup.filter _, fun j => ?_, fun j => ?_⟩
  · rw [waitList, record, List.mem_filter, waits]
    by_cases same : i = j
    · simp [same, freed, RecState.isWaiting]
    · simp [same, Ne.symm same]
  · rw [watchList, record, List.mem_filter, watches]
    by_cases same : i = j
    · simp [same, freed, RecState.isWatching]
    · simp [same, Ne.symm same]

/-! ### The end of a watch (R83, R84)

A watch claims nothing, so its end unblocks nothing. -/

/-- Freeing a WATCHING record leaves every claim as it was. -/
theorem sameClaims_freeRecord_watching (i : RecNo) (o : LinkNo) (b : Block) (tag : Byte) (w : Option Instant) (s : State)
    (state : (s.record i).state = .watching o b tag w) : SameClaims s (freeRecord i s) := by
  have record := record_freeRecord i s o (by rw [state]; rfl)
  constructor
  all_goals
    intro j
    rw [record]
    split
    · rename_i same; rw [← same, state]; rfl
    · rfl

/-- Freeing a WATCHING record leaves the wait list as it was, since the record is not on it (R26). -/
theorem waitList_freeRecord_watching (i : RecNo) (o : LinkNo) (b : Block) (tag : Byte) (w : Option Instant) (s : State)
    (state : (s.record i).state = .watching o b tag w) (lists : ListsMatch s) :
    (freeRecord i s).waitList = s.waitList := by
  obtain ⟨-, -, waits, -⟩ := lists
  rw [freeRecord_eq i s o (by rw [state]; rfl)]
  refine List.filter_eq_self.2 fun j listed => decide_eq_true ?_
  rintro rfl
  rw [waits, state] at listed
  cases listed

/-- Freeing a WATCHING record keeps R50. -/
theorem scanSettled_freeRecord_watching (i : RecNo) (o : LinkNo) (b : Block) (tag : Byte) (w : Option Instant) (s : State)
    (state : (s.record i).state = .watching o b tag w) (settled : ScanSettled s) : ScanSettled (freeRecord i s) := by
  obtain ⟨lists, watched, unlessSpent⟩ := settled
  have owner : (s.record i).state.owner = some o := by rw [state]; rfl
  have same := sameClaims_freeRecord_watching i o b tag w s state
  have tokens : (freeRecord i s).tokensSpent = s.tokensSpent := by rw [freeRecord_eq i s o owner]; rfl
  have before {j : RecNo} {x : RecState} (after : ((freeRecord i s).record j).state = x) (used : x ≠ .free) :
      (s.record j).state = x := by
    rw [← record_freeRecord_of_used owner (by rw [after]; exact used)]; exact after
  refine ⟨listsMatch_freeRecord i s o owner lists, fun j p c g d watching => ?_, fun unspent => ?_⟩
  · rw [same.heldOver]
    exact watched j p c g d (before watching nofun)
  · obtain ⟨converters, waiters⟩ := unlessSpent (tokens ▸ unspent)
    refine ⟨fun j p c t g d h converting => ?_, fun ahead j behind p c m g d h order waiting => ?_⟩
    · rw [same.otherHeldOver]
      exact converters j p c t g d h (before converting nofun)
    · rw [same.heldAgainst, same.earlierAgainst]
      rw [waitList_freeRecord_watching i o b tag w s state lists] at order
      exact waiters ahead j behind p c m g d h order (before waiting nofun)

/-- R50 speaks of records, lists and tokens alone, which closing a tag leaves as they are (R121). -/
theorem scanSettled_closeTag (l : LinkNo) (tag : Byte) (m : Message) (s : State) :
    ScanSettled (closeTag l tag m s) ↔ ScanSettled s := Iff.rfl

/-- A WATCHING record ends by its final notice and then its free. -/
theorem endWatch_of_watching (i : RecNo) (notice : Half → Message) (o : LinkNo) (b : Block) (tag : Byte)
    (w : Option Instant) (s : State) (state : (s.record i).state = .watching o b tag w) :
    endWatch i notice s = freeRecord i (closeTag o tag (notice (s.handle i)) s) := by
  simp only [endWatch, state]

/-- The end of a watch: the notice fills the tag's reservation, the tag is closed and the record is FREE (R83, R84 steps 1
to 3). -/
theorem endWatch_eq (i : RecNo) (notice : Half → Message) (o : LinkNo) (b : Block) (tag : Byte) (w : Option Instant)
    (s : State) (state : (s.record i).state = .watching o b tag w) :
    endWatch i notice s =
      { s with
        records := s.records.set i (freed (s.record i))
        waitList := s.waitList.filter (· ≠ i)
        watchList := s.watchList.filter (· ≠ i)
        sessions := s.sessions.set o { s.session o with
          tags := (s.session o).tags.filter (·.tag ≠ tag), owned := (s.session o).owned - 1 }
        links := s.links.set o { s.link o with
          outbound := (s.link o).outbound ++ [{ tag := tag, msg := notice (s.handle i), adopts := false }]
          reserved := (s.link o).reserved - 1 } } := by
  have owner : ((closeTag o tag (notice (s.handle i)) s).record i).state.owner = some o := by
    rw [record_closeTag, state]; rfl
  rw [endWatch_of_watching i notice o b tag w s state, freeRecord_eq i _ o owner, record_closeTag, closeTag_eq]
  simp [State.session, Vector.get_set_fin]

/-- The end of a watch keeps R50. -/
theorem scanSettled_endWatch (i : RecNo) (notice : Half → Message) (o : LinkNo) (b : Block) (tag : Byte)
    (w : Option Instant) (s : State) (state : (s.record i).state = .watching o b tag w) (settled : ScanSettled s) :
    ScanSettled (endWatch i notice s) := by
  rw [endWatch_of_watching i notice o b tag w s state]
  exact scanSettled_freeRecord_watching i o b tag w _ state ((scanSettled_closeTag ..).2 settled)

/-- The expiry of a due watch ends it with TIMED_OUT, and the scan follows (R83). -/
theorem execWatchWaitDeadlineExpiry_of_due (i : RecNo) (o : LinkNo) (b : Block) (tag : Byte) (d : Instant) (s : State)
    (running : s.resetHeld = false) (state : (s.record i).state = .watching o b tag (some d))
    (due : s.reached d = true) :
    execWatchWaitDeadlineExpiry i s = .next (grantScan (endWatch i .timedOutRecord s)) := by
  have expires : s.expires (RecState.watching o b tag (some d)).waitDeadline = true :=
    expires_of_reached s d running due
  simp only [execWatchWaitDeadlineExpiry, expireWait, state, RecState.isWatching, expires, Bool.and_self, ↓reduceIte]

/-- Settles O12: the expiry is due, so the watch ends with TIMED_OUT and the scan runs; the end of a watch keeps R50, so from
a settled state the scan changes nothing. -/
theorem watchWaitExpiryFreesRecord : Obligations.WatchWaitExpiryFreesRecord := by
  intro i o b tag d s running state due
  refine ⟨_, rfl, ?_⟩
  rw [← endWatch_eq i .timedOutRecord o b tag (some d) s state]
  exact ⟨execWatchWaitDeadlineExpiry_of_due i o b tag d s running state due, fun settled =>
    grantScan_of_scanSettled _ (scanSettled_endWatch i .timedOutRecord o b tag (some d) s state settled)⟩

end Sys2Proof.Machine
end

section
/-! PROOFS. Barrier groups: the notices that end a round, and the expiry of an arrival (R98). -/

namespace Sys2Proof.Machine

open Sys2Proof.Safety

/-! ### The account of one link: its link unit and its session -/

/-- The notice `m` fills the reservation of the entry's tag, and the tag is closed (R121, R148). -/
def Told (m : Message) (a : Arrival) (s u : State) : Prop :=
  u.link a.link = { s.link a.link with
    outbound := (s.link a.link).outbound ++ [{ tag := a.tag, msg := m, adopts := false }]
    reserved := (s.link a.link).reserved - 1 } ∧
  u.session a.link = { s.session a.link with tags := (s.session a.link).tags.filter (·.tag ≠ a.tag) }

/-- The link unit and the session of link `k` are as they were. -/
def SameAccount (k : LinkNo) (s u : State) : Prop := u.link k = s.link k ∧ u.session k = s.session k

theorem SameAccount.trans {k : LinkNo} {s t u : State} (before : SameAccount k s t) (after : SameAccount k t u) :
    SameAccount k s u :=
  ⟨after.1.trans before.1, after.2.trans before.2⟩

/-- What happened before at other links does not change what an entry is told. -/
theorem Told.after {m : Message} {a : Arrival} {s t u : State} (before : SameAccount a.link s t) (told : Told m a t u) :
    Told m a s u := by
  obtain ⟨link, session⟩ := before
  rwa [Told, link, session] at told

/-- Nor does what happens afterwards at other links. -/
theorem Told.before {m : Message} {a : Arrival} {s t u : State} (told : Told m a s t) (after : SameAccount a.link t u) :
    Told m a s u := by
  obtain ⟨link, session⟩ := after
  rwa [Told, ← link, ← session] at told

/-- Closing an entry's tag tells the entry (R121). -/
theorem told_closeTag (m : Message) (a : Arrival) (s : State) : Told m a s (closeTag a.link a.tag m s) := by
  simp [Told, closeTag, queueReserved]

/-- Closing a tag of one link is nothing to another (R121). -/
theorem sameAccount_closeTag {l k : LinkNo} (other : l ≠ k) (tag : Byte) (m : Message) (s : State) :
    SameAccount k s (closeTag l tag m s) := by
  simp [SameAccount, closeTag, queueReserved, State.link_putLink_ne, State.session_putSession_ne, other]

/-! ### The notices of a round -/

/-- A link without an entry in the list is told nothing. -/
theorem sameAccount_notifyArrivals (notice : Nat → Message) (k : LinkNo) (rank : Nat) (list : List Arrival) (s : State)
    (absent : ∀ a ∈ list, a.link ≠ k) : SameAccount k s (notifyArrivals notice rank list s) := by
  induction list generalizing rank s with
  | nil => exact ⟨rfl, rfl⟩
  | cons a rest ih =>
    obtain ⟨other, absent⟩ := List.forall_mem_cons.1 absent
    exact (sameAccount_closeTag other a.tag (notice rank) s).trans (ih _ _ absent)

/-- The entries being of distinct links (R90), each is told its own notice and that alone, the first at `rank`. -/
theorem told_notifyArrivals (notice : Nat → Message) (rank : Nat) (list : List Arrival) (s : State)
    (distinct : (list.map (·.link)).Nodup) (r : Nat) (lt : r < list.length) :
    Told (notice (rank + r)) list[r] s (notifyArrivals notice rank list s) := by
  induction list generalizing rank s r with
  | nil => exact absurd lt r.not_lt_zero
  | cons a rest ih =>
    obtain ⟨first, distinct⟩ := List.nodup_cons.1 distinct
    have others : ∀ b ∈ rest, b.link ≠ a.link := fun b listed same => first (List.mem_map.2 ⟨b, listed, same⟩)
    cases r with
    | zero =>
      exact (told_closeTag (notice rank) a s).before (sameAccount_notifyArrivals notice a.link (rank + 1) rest _ others)
    | succ r =>
      have lt : r < rest.length := Nat.lt_of_succ_lt_succ lt
      have told := ih (rank + 1) (closeTag a.link a.tag (notice rank) s) distinct r lt
      rw [Nat.add_right_comm] at told
      exact told.after (sameAccount_closeTag (others _ (List.getElem_mem lt)).symm a.tag (notice rank) s)

/-- So when every entry is told the same, where it stands in the list does not matter. -/
theorem told_notifyArrivals_of_mem (m : Message) (rank : Nat) (list : List Arrival) (s : State)
    (distinct : (list.map (·.link)).Nodup) (a : Arrival) (listed : a ∈ list) :
    Told m a s (notifyArrivals (fun _ => m) rank list s) := by
  obtain ⟨r, lt, rfl⟩ := List.mem_iff_getElem.1 listed
  exact told_notifyArrivals (fun _ => m) rank list s distinct r lt

/-- The notices of a round write link units and sessions alone. -/
theorem notifyArrivals_frame (notice : Nat → Message) (rank : Nat) (list : List Arrival) (s : State) :
    ∃ links sessions, notifyArrivals notice rank list s = { s with links := links, sessions := sessions } := by
  refine notifyArrivals_induct (fun t => ∃ links sessions, t = { s with links := links, sessions := sessions }) notice
    ?_ rank list s ⟨_, _, rfl⟩
  rintro _ l tag m ⟨links, sessions, rfl⟩
  exact ⟨_, _, closeTag_eq l tag m _⟩

/-! ### The expiry of an arrival (R98) -/

/-- An expiry writes link units and sessions, and ends the round of its group. -/
theorem expireArrival_frame (g : GroupNo) (a : Arrival) (s : State) :
    ∃ links sessions, expireArrival g a s = endRound g { s with links := links, sessions := sessions } := by
  obtain ⟨links, sessions, notified⟩ := notifyArrivals_frame (fun _ => .broken g (s.group g).generation .timeout) 1
    ((s.group g).arrivals.filter (·.link ≠ a.link))
    (closeTag a.link a.tag (.timedOutArrival g (s.group g).generation) s)
  exact ⟨links, sessions, congrArg (endRound g) notified⟩

/-- The group's list is emptied and its generation advances; the other groups are as they were (R98 steps 5 and 6). -/
theorem group_expireArrival (g : GroupNo) (a : Arrival) (s : State) (h : GroupNo) :
    (expireArrival g a s).group h =
      if g = h then { generation := (s.group g).generation + 1, arrivals := [] } else s.group h := by
  obtain ⟨links, sessions, frame⟩ := expireArrival_frame g a s
  rw [frame]
  exact State.group_putGroup ..

/-- Control state, records, their lists and the token counter are as they were. -/
theorem expireArrival_keeps (g : GroupNo) (a : Arrival) (s : State) :
    SameControl s (expireArrival g a s) ∧ (expireArrival g a s).records = s.records ∧
    (expireArrival g a s).waitList = s.waitList ∧ (expireArrival g a s).watchList = s.watchList ∧
    (expireArrival g a s).tokens = s.tokens := by
  obtain ⟨links, sessions, frame⟩ := expireArrival_frame g a s
  rw [frame]
  exact ⟨⟨rfl, rfl, rfl, rfl, rfl, rfl, rfl, rfl, rfl⟩, rfl, rfl, rfl, rfl⟩

/-- The expiring entry is told TIMED_OUT (R98 step 2). -/
theorem told_expireArrival_self (g : GroupNo) (a : Arrival) (s : State) :
    Told (.timedOutArrival g (s.group g).generation) a s (expireArrival g a s) :=
  (told_closeTag _ a s).before
    (sameAccount_notifyArrivals _ a.link 1 _ _ fun _ others => of_decide_eq_true (List.mem_filter.1 others).2)

/-- Every other entry is told BROKEN with cause TIMEOUT (R98 step 3). -/
theorem told_expireArrival_other (g : GroupNo) (a b : Arrival) (s : State)
    (distinct : ((s.group g).arrivals.map (·.link)).Nodup) (listed : b ∈ (s.group g).arrivals) (other : b.link ≠ a.link) :
    Told (.broken g (s.group g).generation .timeout) b s (expireArrival g a s) := by
  have others : (((s.group g).arrivals.filter (·.link ≠ a.link)).map (·.link)).Nodup :=
    distinct.sublist (List.filter_sublist.map _)
  exact (told_notifyArrivals_of_mem _ 1 _ _ others b (List.mem_filter.2 ⟨listed, decide_eq_true other⟩)).after
    (sameAccount_closeTag other.symm a.tag _ s)

/-- A link without an entry in the list is told nothing. -/
theorem sameAccount_expireArrival (g : GroupNo) (a : Arrival) (k : LinkNo) (s : State)
    (listed : a ∈ (s.group g).arrivals) (absent : ∀ b ∈ (s.group g).arrivals, b.link ≠ k) :
    SameAccount k s (expireArrival g a s) :=
  (sameAccount_closeTag (absent a listed) a.tag _ s).trans
    (sameAccount_notifyArrivals _ k 1 _ _ fun b other => absent b (List.mem_of_mem_filter other))

/-- The entries being of distinct links (R90), an entry is found by its link. -/
theorem find?_arrival_of_mem (list : List Arrival) (a : Arrival) (distinct : (list.map (·.link)).Nodup)
    (listed : a ∈ list) : list.find? (·.link = a.link) = some a := by
  obtain ⟨b, found⟩ := Option.isSome_iff_exists.1
    (List.find?_isSome.2 ⟨a, listed, decide_eq_true rfl⟩ : (list.find? (·.link = a.link)).isSome)
  have same : b.link = a.link := of_decide_eq_true (List.find?_some found :)
  rw [found, List.inj_on_of_nodup_map distinct (List.mem_of_find?_eq_some found) listed same]

/-- The expiry of a due arrival breaks the round (R98). -/
theorem execArrivalDeadlineExpiry_of_due (g : GroupNo) (a : Arrival) (d : Instant) (s : State)
    (running : s.resetHeld = false) (listed : a ∈ (s.group g).arrivals)
    (distinct : ((s.group g).arrivals.map (·.link)).Nodup) (armed : a.due = some d) (due : s.reached d = true) :
    execArrivalDeadlineExpiry g a.link s = .next (expireArrival g a s) := by
  simp only [execArrivalDeadlineExpiry, find?_arrival_of_mem _ a distinct listed, armed,
    expires_of_reached s d running due, ↓reduceIte]

/-- Settles O14: the expiring entry is told TIMED_OUT first and the others BROKEN after it; their links being distinct, no
later notice touches an account already written, and the round ends with everything else as it was. -/
theorem arrivalExpiryBreaksRound : Obligations.ArrivalExpiryBreaksRound := by
  intro g l tag d s running listed distinct due
  obtain ⟨a, rfl, armed, listed⟩ : ∃ a : Arrival, a.link = l ∧ a.due = some d ∧ a ∈ (s.group g).arrivals :=
    ⟨_, rfl, rfl, listed⟩
  refine ⟨expireArrival g a s, execArrivalDeadlineExpiry_of_due g a d s running listed distinct armed due, ?_⟩
  have told : ∀ b ∈ (s.group g).arrivals, ∀ m : Message,
      m = (if b.link = a.link then .timedOutArrival g (s.group g).generation
           else .broken g (s.group g).generation .timeout) → Told m b s (expireArrival g a s) := by
    rintro b here _ rfl
    split
    · rename_i own
      obtain rfl : b = a := List.inj_on_of_nodup_map distinct here listed own
      exact told_expireArrival_self g b s
    · rename_i other
      exact told_expireArrival_other g a b s distinct here other
  have untold := fun k => sameAccount_expireArrival g a k s listed
  have group := group_expireArrival g a s
  obtain ⟨control, records, waitList, watchList, tokens⟩ := expireArrival_keeps g a s
  exact ⟨control, (group g).trans (if_pos rfl), fun h other => (group h).trans (if_neg other.symm), told, untold,
    records, waitList, watchList, tokens⟩

end Sys2Proof.Machine
end

section
/-! PROOFS. What the blocks of the part can do to its state: elementary moves with their guards, and every event as a sequence
of them. An invariant that each elementary move keeps is kept by every event. -/

namespace Sys2Proof.Machine

open Sys2Proof.Safety

/-! ### Elementary moves -/

/-- One elementary move of the link units, the lock engine and the barrier unit, with the guard under which the model makes
it. Control state and session states are as they were. -/
inductive Work : State → State → Prop where
  /-- A link unit is written; its intake queue is not made longer beyond three frames (R141). -/
  | link (s : State) (l : LinkNo) (u : LinkUnit) (room : u.intake.length ≤ max 3 (s.link l).intake.length) :
      Work s (s.putLink l u)
  /-- An open-tag list is written. -/
  | tags (s : State) (l : LinkNo) (list : List OpenTag) : Work s (s.putSession l { s.session l with tags := list })
  /-- Arrivals leave a list (R94, R98, R101, R103). -/
  | depart (s : State) (g : GroupNo) (x : Group) (fewer : ∀ a ∈ x.arrivals, a ∈ (s.group g).arrivals) :
      Work s (s.putGroup g x)
  /-- An arrival joins a list (R96). -/
  | arrive (s : State) (g : GroupNo) (l : LinkNo) (tag : Byte) (wait : Nat) (running : s.service = .service)
      (range : wait ≤ 65535) :
      Work s (s.putGroup g { s.group g with
        arrivals := (s.group g).arrivals ++ [{ link := l, tag := tag, due := s.waitDue wait }] })
  /-- A record returns to FREE (R19). -/
  | free (s : State) (i : RecNo) : Work s (freeRecord i s)
  /-- A holding falls back to HELD SHARED or is downgraded (R60, R66, R67). -/
  | share (s : State) (i : RecNo) (o : LinkNo) (b : Block) (token : Word) (hold : Option Hold)
      (holding : (∃ m, (s.record i).state = .held o b m token hold) ∨
        ∃ g w, (s.record i).state = .converting o b token g w hold) :
      Work s (s.putState i (.held o b .shared token hold))
  /-- A holding that no other overlaps becomes HELD EXCLUSIVE with the next token (R44, R61). -/
  | exclude (s : State) (i : RecNo) (o : LinkNo) (b : Block) (token : Word) (hold : Option Hold)
      (holding : (∃ m, (s.record i).state = .held o b m token hold) ∨
        ∃ g w, (s.record i).state = .converting o b token g w hold)
      (unspent : s.tokensSpent = false) (alone : s.otherHeldOver i b = false) :
      Work s (issueToken (s.putState i (.held o b .exclusive s.nextToken hold)))
  /-- A HELD SHARED record enters CONVERTING (R64). -/
  | convert (s : State) (i : RecNo) (o : LinkNo) (b : Block) (token : Word) (tag : Byte) (wait : Nat) (hold : Option Hold)
      (holding : (s.record i).state = .held o b .shared token hold) (others : s.otherHeldOver i b = true)
      (settled : s.otherConvertingOver i b = false) (range : wait ≤ 65535) :
      Work s (s.putState i (.converting o b token tag (s.waitDue wait) hold))
  /-- A WAITING record is granted (R46). -/
  | grant (s : State) (i : RecNo) (o : LinkNo) (b : Block) (m : Mode) (tag : Byte) (w : Option Instant)
      (limit : Option Nat) (waiting : (s.record i).state = .waiting o b m tag w limit) (unspent : s.tokensSpent = false)
      (open_ : s.heldAgainst b m = false) :
      Work s { issueToken (s.putState i (.held o b m s.nextToken (s.armHold limit))) with
        waitList := s.waitList.filter (· ≠ i) }
  /-- A FREE record is granted at once (R36). -/
  | hold (s : State) (i : RecNo) (l : LinkNo) (q : Block) (w : Window) (m : Mode) (hold : Nat)
      (running : s.service = .service) (is_open : (s.session l).isOpen = true) (free : (s.record i).state = .free)
      (admits : Admits s l q w) (quota : BelowQuota s l) (unspent : s.tokensSpent = false)
      (open_ : s.claimConflicts (w.translate q) m = false) (range : hold ≤ 65535) :
      Work s (issueToken (allocate i l
        (.held l (w.translate q) m s.nextToken (s.armHold (holdLimitOf hold))) s))
  /-- A FREE record joins the wait list (R38). -/
  | wait (s : State) (i : RecNo) (l : LinkNo) (q : Block) (w : Window) (m : Mode) (tag : Byte) (wait hold : Nat)
      (running : s.service = .service) (is_open : (s.session l).isOpen = true) (free : (s.record i).state = .free)
      (admits : Admits s l q w) (quota : BelowQuota s l) (room : s.waitListFull = false)
      (blocked : s.claimConflicts (w.translate q) m = true) (range : wait ≤ 65535) (holdRange : hold ≤ 65535) :
      Work s { allocate i l (.waiting l (w.translate q) m tag (s.waitDue wait) (holdLimitOf hold)) s with
        waitList := s.waitList ++ [i] }
  /-- A FREE record joins the watch list (R81). -/
  | watch (s : State) (i : RecNo) (l : LinkNo) (q : Block) (w : Window) (tag : Byte) (wait : Nat)
      (running : s.service = .service) (is_open : (s.session l).isOpen = true) (free : (s.record i).state = .free)
      (admits : Admits s l q w) (quota : BelowQuota s l) (room : s.watchListFull = false)
      (held : s.heldOver (w.translate q) = true) (range : wait ≤ 65535) :
      Work s { allocate i l (.watching l (w.translate q) tag (s.waitDue wait)) s with watchList := s.watchList ++ [i] }
  /-- The token counter is raised (R32). -/
  | floor (s : State) (v : Word) (raises : s.tokens ≤ v) : Work s { s with tokens := v }

/-- A sequence of elementary moves. -/
abbrev Works : State → State → Prop := Relation.ReflTransGen Work

theorem Work.works {s t : State} (h : Work s t) : Works s t := .single h

/-- Control state and the session states are as they were. -/
def WorkFrame (s t : State) : Prop := SameControl s t ∧ (∀ l, (t.session l).state = (s.session l).state) ∧ s.tokens ≤ t.tokens

/-- An event that changes nothing changes no control state. -/
theorem sameControl_refl (s : State) : SameControl s s := ⟨rfl, rfl, rfl, rfl, rfl, rfl, rfl, rfl, rfl⟩

theorem sameControl_trans {s t u : State} (h : SameControl s t) (k : SameControl t u) : SameControl s u := by
  obtain ⟨h1, h2, h3, h4, h5, h6, h7, h8, h9⟩ := h
  obtain ⟨k1, k2, k3, k4, k5, k6, k7, k8, k9⟩ := k
  exact ⟨k1.trans h1, k2.trans h2, k3.trans h3, k4.trans h4, k5.trans h5, k6.trans h6, k7.trans h7, k8.trans h8,
    k9.trans h9⟩

/-- The next token is greater than the counter while tokens are left (R30, R31). -/
theorem lt_nextToken (s : State) (unspent : s.tokensSpent = false) : s.tokens < s.nextToken := by
  have : s.tokens ≠ 0xFFFFFFFF := of_decide_eq_false unspent
  unfold State.nextToken
  bv_omega

/-- Freeing a record leaves control state and the session states as they were, and the tokens. -/
theorem freeRecord_frame (i : RecNo) (s : State) :
    SameControl s (freeRecord i s) ∧ (∀ l, ((freeRecord i s).session l).state = (s.session l).state ∧
      ((freeRecord i s).session l).tags = (s.session l).tags) ∧
      (freeRecord i s).tokens = s.tokens ∧ (freeRecord i s).links = s.links ∧ (freeRecord i s).groups = s.groups := by
  cases owner : (s.record i).state.owner with
  | none =>
    have free : (s.record i).state = .free := by
      cases h : (s.record i).state <;> simp [h, RecState.owner] at owner ⊢
    rw [freeRecord_free i s free]
    exact ⟨⟨rfl, rfl, rfl, rfl, rfl, rfl, rfl, rfl, rfl⟩, fun _ => ⟨rfl, rfl⟩, rfl, rfl, rfl⟩
  | some o =>
    rw [freeRecord_eq i s o owner]
    refine ⟨⟨rfl, rfl, rfl, rfl, rfl, rfl, rfl, rfl, rfl⟩, fun l => ?_, rfl, rfl, rfl⟩
    by_cases same : o = l <;> simp [State.session, Vector.get_set_fin, same]

/-- A move of the blocks leaves control state and the session states as they were, and never lowers the token counter. -/
theorem Work.frame {s t : State} (h : Work s t) : WorkFrame s t := by
  have control : SameControl s s := sameControl_refl s
  have same : s.tokens ≤ s.tokens := BitVec.le_refl _
  have session (l : LinkNo) (x : Session) (same : x.state = (s.session l).state) (m : LinkNo) :
      ((s.putSession l x).session m).state = (s.session m).state := by
    rw [State.session_putSession]; split
    · rename_i e; rw [same, e]
    · rfl
  have next (unspent : s.tokensSpent = false) : s.tokens ≤ s.nextToken := BitVec.le_of_lt (lt_nextToken s unspent)
  cases h with
  | link | depart | arrive | share | convert => exact ⟨control, fun _ => rfl, same⟩
  | tags l list => exact ⟨control, session l { s.session l with tags := list } rfl, same⟩
  | free i =>
    obtain ⟨kept, sessions, tokens, -, -⟩ := freeRecord_frame i s
    exact ⟨kept, fun l => (sessions l).1, by rw [tokens]; exact same⟩
  | exclude _ _ _ _ _ _ unspent _ => exact ⟨control, fun _ => rfl, next unspent⟩
  | grant _ _ _ _ _ _ _ _ unspent _ => exact ⟨control, fun _ => rfl, next unspent⟩
  | hold i l _ _ _ _ _ _ _ _ _ unspent _ _ =>
    exact ⟨control, session l { s.session l with owned := (s.session l).owned + 1 } rfl, next unspent⟩
  | wait i l => exact ⟨control, session l { s.session l with owned := (s.session l).owned + 1 } rfl, same⟩
  | watch i l => exact ⟨control, session l { s.session l with owned := (s.session l).owned + 1 } rfl, same⟩
  | floor v raises => exact ⟨control, fun _ => rfl, raises⟩

/-- So does a sequence of them. -/
theorem Works.frame {s t : State} (h : Works s t) : WorkFrame s t := by
  induction h with
  | refl => exact ⟨sameControl_refl s, fun _ => rfl, BitVec.le_refl _⟩
  | tail _ move ih =>
    obtain ⟨control, sessions, tokens⟩ := ih
    obtain ⟨control', sessions', tokens'⟩ := move.frame
    exact ⟨sameControl_trans control control', fun l => (sessions' l).trans (sessions l), BitVec.le_trans tokens tokens'⟩

end Sys2Proof.Machine
end

section
/-! PROOFS. The operations over the state as sequences of elementary moves. -/

namespace Sys2Proof.Machine

open Sys2Proof.Safety

/-! ### Link units, tags and the outbound account -/

/-- A link unit written with its intake queue kept. -/
theorem works_putLink (s : State) (l : LinkNo) (u : LinkUnit) (intake : u.intake = (s.link l).intake) :
    Works s (s.putLink l u) :=
  (Work.link s l u (by rw [intake]; exact Nat.le_max_right ..)).works

/-- A link unit written with its intake queue emptied. -/
theorem works_putLink_nil (s : State) (l : LinkNo) (u : LinkUnit) (intake : u.intake = []) : Works s (s.putLink l u) :=
  (Work.link s l u (by rw [intake]; exact Nat.zero_le _)).works

theorem works_queueFree (l : LinkNo) (e : OutEntry) (s : State) : Works s (queueFree l e s) := works_putLink s l _ rfl

theorem works_reply (l : LinkNo) (tag : Byte) (m : Message) (s : State) : Works s (reply l tag m s) :=
  works_queueFree l _ s

theorem works_refuse (l : LinkNo) (tag : Byte) (r : Reason) (d : Byte) (s : State) : Works s (refuse l tag r d s) :=
  works_reply l tag _ s

theorem works_queueReserved (l : LinkNo) (tag : Byte) (m : Message) (s : State) : Works s (queueReserved l tag m s) :=
  works_putLink s l _ rfl

theorem works_reserve (l : LinkNo) (s : State) : Works s (reserve l s) := works_putLink s l _ rfl

theorem works_unreserve (l : LinkNo) (s : State) : Works s (unreserve l s) := works_putLink s l _ rfl

theorem works_adopt (l : LinkNo) (s : State) : Works s (adopt l s) := by
  rw [adopt_eq]
  obtain ⟨-, -, -, -, intake, -⟩ := adopted_fields (s.settings l) (s.link l)
  exact works_putLink s l _ intake

theorem works_flush (l : LinkNo) (s : State) : Works s (flush l s) := by
  unfold flush
  dsimp only
  split
  · refine .trans ?_ (works_adopt l _)
    exact works_putLink s l _ rfl
  · exact works_putLink s l _ rfl

theorem works_clearLink (l : LinkNo) (s : State) : Works s (clearLink l s) := by
  unfold clearLink
  dsimp only
  split
  · refine .trans ?_ (works_adopt l _)
    exact works_putLink_nil s l _ rfl
  · exact works_putLink_nil s l _ rfl

theorem works_openTag (l : LinkNo) (tag : Byte) (ref : TagRef) (s : State) : Works s (openTag l tag ref s) :=
  (Work.tags s l _).works.trans (works_reserve l _)

theorem works_closeTag (l : LinkNo) (tag : Byte) (m : Message) (s : State) : Works s (closeTag l tag m s) :=
  (works_queueReserved l tag m s).trans (Work.tags _ l _).works

theorem works_dropTags (l : LinkNo) (s : State) : Works s (dropTags l s) := (Work.tags s l []).works

theorem works_returnHold (x : RecState) (s : State) : Works s (returnHold x s) := by
  unfold returnHold
  split
  · split
    · exact works_unreserve _ s
    · exact .refl
  · exact .refl

theorem works_reserveHold (l : LinkNo) (limit : Option Nat) (s : State) : Works s (reserveHold l limit s) := by
  unfold reserveHold
  split
  · exact works_reserve l s
  · exact .refl

/-! ### Records -/

theorem works_freeHolding (i : RecNo) (s : State) : Works s (freeHolding i s) :=
  (Work.free s i).works.trans (works_returnHold _ _)

theorem works_concludeConversion (i : RecNo) (s : State) : Works s (concludeConversion i s) := by
  unfold concludeConversion
  split
  · exact works_closeTag ..
  all_goals exact .refl

theorem works_endLockWait (i : RecNo) (notice : Half → Message) (s : State) : Works s (endLockWait i notice s) := by
  unfold endLockWait
  split
  · exact ((Work.free s i).works.trans (works_closeTag ..)).trans (works_returnHold ..)
  all_goals exact .refl

theorem works_endConversion (i : RecNo) (notice : Half → Message) (s : State) : Works s (endConversion i notice s) := by
  unfold endConversion
  split
  · rename_i o b token tag w hold state
    exact (Work.share s i o b token hold (.inr ⟨tag, w, state⟩)).works.trans (works_closeTag ..)
  all_goals exact .refl

theorem works_endWatch (i : RecNo) (notice : Half → Message) (s : State) : Works s (endWatch i notice s) := by
  unfold endWatch
  split
  · exact (works_closeTag ..).trans (Work.free _ i).works
  all_goals exact .refl

theorem works_revoke (i : RecNo) (s : State) : Works s (revoke i s) := by
  unfold revoke
  split
  · exact (Work.free s i).works.trans (works_queueReserved ..)
  · exact (Work.free s i).works.trans (works_queueReserved ..)
  all_goals exact .refl

/-! ### The grant scan and the reclaims -/

theorem works_grantScan (s : State) : Works s (grantScan s) := by
  refine grantScan_induct (Works s) ?_ ?_ ?_ s .refl
  · intro t i o b token tag w hold before state unspent alone
    exact (before.tail (.exclude t i o b token hold (.inr ⟨tag, w, state⟩) unspent alone)).trans (works_closeTag ..)
  · intro t i o b m tag w limit before state unspent open_
    exact (before.tail (.grant t i o b m tag w limit state unspent open_)).trans (works_closeTag ..)
  · intro t i o b tag w before _ _
    exact (before.trans (works_closeTag ..)).tail (.free _ i)

theorem works_freeOwned (freeOne : RecNo → State → State) (free : ∀ i t, Works t (freeOne i t)) (l : LinkNo) (s : State) :
    Works s (freeOwned freeOne l s) :=
  freeOwned_induct (Works s) freeOne l (fun t i before _ => before.trans (free i t)) s .refl

theorem works_freeRecord (i : RecNo) (s : State) : Works s (freeRecord i s) := (Work.free s i).works

theorem works_reclaimFailed (l : LinkNo) (s : State) : Works s (reclaimFailed l s) :=
  (works_freeOwned freeRecord works_freeRecord l s).trans (works_grantScan _)

theorem works_reclaimClosed (l : LinkNo) (s : State) : Works s (reclaimClosed l s) :=
  (works_freeOwned freeHolding works_freeHolding l s).trans (works_grantScan _)

/-! ### Barrier groups -/

theorem works_notifyArrivals (notice : Nat → Message) (rank : Nat) (list : List Arrival) (s : State) :
    Works s (notifyArrivals notice rank list s) :=
  notifyArrivals_induct (Works s) notice (fun _ _ _ _ before => before.trans (works_closeTag ..)) rank list s .refl

theorem works_endRound (g : GroupNo) (s : State) : Works s (endRound g s) := (Work.depart s g _ fun _ listed => absurd listed List.not_mem_nil).works

theorem works_passRound (g : GroupNo) (count : Nat) (s : State) : Works s (passRound g count s) :=
  (works_notifyArrivals ..).trans (works_endRound ..)

theorem works_breakRound (g : GroupNo) (cause : BreakCause) (others : List Arrival) (s : State) :
    Works s (breakRound g cause others s) :=
  (works_notifyArrivals ..).trans (works_endRound ..)

theorem works_expireArrival (g : GroupNo) (a : Arrival) (s : State) : Works s (expireArrival g a s) :=
  (works_closeTag ..).trans (works_breakRound ..)

theorem works_withdraw (l : LinkNo) (tag : Byte) (g : GroupNo) (s : State) : Works s (withdraw l tag g s) :=
  (works_closeTag ..).tail (.depart _ g _ fun _ kept => List.mem_of_mem_filter kept)

/-- A fold of operations that are each a sequence of moves is one. -/
theorem works_foldl {α : Type} (f : State → α → State) (step : ∀ t a, Works t (f t a)) (list : List α) (s : State) :
    Works s (list.foldl f s) := by
  induction list generalizing s with
  | nil => exact .refl
  | cons a rest ih => exact (step s a).trans (ih _)

theorem works_departGroup (l : LinkNo) (s : State) (g : GroupNo) : Works s (departGroup l s g) := by
  unfold departGroup
  split
  · exact works_breakRound ..
  · exact .refl

theorem works_depart (l : LinkNo) (s : State) : Works s (depart l s) := works_foldl _ (works_departGroup l) _ s

theorem works_retestGroup (l : LinkNo) (s : State) (g : GroupNo) : Works s (retestGroup l s g) := by
  unfold retestGroup
  split
  · exact works_passRound ..
  · exact .refl

theorem works_retest (l : LinkNo) (s : State) : Works s (retest l s) := works_foldl _ (works_retestGroup l) _ s

/-! ### Sessions, apart from the change of their state -/

theorem works_cancelEntry (l : LinkNo) (x : OpenTag) (s : State) : Works s (cancelEntry l x s) := by
  unfold cancelEntry
  split
  · exact works_endLockWait ..
  · exact works_endConversion ..
  · exact works_endWatch ..
  · exact works_withdraw ..

theorem works_scanAfterCancel (x : TagRef) (s : State) : Works s (scanAfterCancel x s) := by
  unfold scanAfterCancel
  split
  · exact works_grantScan s
  · exact works_grantScan s
  · exact works_grantScan s
  · exact .refl

theorem works_failureEnd (l : LinkNo) (s : State) : Works s (failureEnd l s) :=
  (works_reclaimFailed l s).trans (works_depart l _)

/-- After the session has become LAPSED the rest of a lapse is work of the blocks (R114). -/
theorem works_lapse (l : LinkNo) (cause : EndCause) (s : State) : Works (putSessState l .lapsed s) (lapse l cause s) := by
  unfold lapse
  refine .trans ?_ (works_failureEnd l _)
  refine .trans ?_ (works_queueReserved l 0 (.ended cause) _)
  refine .trans ?_ (works_flush l _)
  exact works_dropTags l _

/-- The state that a CLOSE has reached when the session ends (R111 steps 1 and 2). -/
def tagsCancelled (l : LinkNo) (s : State) : State := (s.session l).tags.foldl (fun t x => cancelEntry l x t) s

theorem works_tagsCancelled (l : LinkNo) (s : State) : Works s (tagsCancelled l s) :=
  works_foldl _ (fun t x => works_cancelEntry l x t) _ s

/-- After the session has become CLOSED the rest of a CLOSE is work of the blocks (R111). -/
theorem works_closeSequence (l : LinkNo) (s : State) :
    Works (putSessState l .closed (tagsCancelled l s)) (closeSequence l s) :=
  ((works_retest l _).trans (works_reclaimClosed l _)).trans (works_unreserve l _)

/-! ### Expiries -/

theorem works_expireWait (i : RecNo) (s : State) : Works s (expireWait i s) := by
  unfold expireWait
  split
  · exact (works_endLockWait ..).trans (works_grantScan _)
  · exact (works_endConversion ..).trans (works_grantScan _)
  · exact (works_endWatch ..).trans (works_grantScan _)
  · exact .refl
  · exact .refl

theorem works_expireHold (i : RecNo) (s : State) : Works s (expireHold i s) :=
  ((works_concludeConversion i s).trans (works_revoke i _)).trans (works_grantScan _)

/-! ### Receiver and transmitter -/

theorem works_countFault (l : LinkNo) (f : LinkFault) (s : State) : Works s (countFault l f s) := works_putLink s l _ rfl

theorem works_runOutGapTimer (l : LinkNo) (s : State) : Works s (runOutGapTimer l s) :=
  (works_countFault l .gap s).trans (works_putLink _ l _ rfl)

theorem works_lineReturned (l : LinkNo) (s : State) : Works s (lineReturned l s) := by
  unfold lineReturned
  split
  · exact .refl
  · exact .refl
  · split
    · exact works_runOutGapTimer l s
    · exact works_putLink s l _ rfl

theorem works_runGapTimer (l : LinkNo) (n : Nat) (s : State) : Works s (runGapTimer l n s) := by
  unfold runGapTimer
  split
  · exact .refl
  · split
    · exact works_runOutGapTimer l s
    · exact works_putLink s l _ rfl
  · exact works_putLink s l _ rfl

theorem works_finishEntry (l : LinkNo) (e : OutEntry) (rest : List OutEntry) (s : State) :
    Works s (finishEntry l e rest s) := by
  unfold finishEntry
  dsimp only
  split
  · refine .trans ?_ (works_adopt l _)
    exact works_putLink s l _ rfl
  · exact works_putLink s l _ rfl

theorem works_runTransmitter (l : LinkNo) (n : Nat) (s : State) : Works s (runTransmitter l n s) := by
  unfold runTransmitter
  split
  · exact .refl
  · exact works_putLink s l _ rfl
  · split
    · split
      · exact works_finishEntry ..
      · exact works_putLink s l _ rfl
    · exact works_putLink s l _ rfl

theorem works_linePeriod (s : State) : Works s (linePeriod s) :=
  works_foldl _ (fun t l => (works_runGapTimer l 1 t).trans (works_runTransmitter l 1 _)) _ s

end Sys2Proof.Machine
end

section
/-! PROOFS. Requests: how the dispatcher hands them to their owners, and what an owner does as elementary moves. -/

namespace Sys2Proof.Machine

open Sys2Proof.Safety

/-! ### The dispatcher -/

/-- What the owner of a request kind does with it (R154). -/
def answer (k : ReqKind) (l : LinkNo) (tag : Byte) (body : List Byte) : State → State :=
  match k with
  | .openSession => openSession l tag body
  | .closeSession => closeSession l tag body
  | .renew => renew l tag body
  | .status => status l tag body
  | .acquire => acquire l tag body
  | .release => release l tag body
  | .convert => convert l tag body
  | .cancel => cancel l tag body
  | .watch => watch l tag body
  | .query => query l tag body
  | .arrive => arrive l tag body
  | .setLink => setLink l tag body
  | .setWindow => setWindow l tag body
  | .setGroup => setGroup l tag body
  | .setFloor => setFloor l tag body
  | .start => start l tag body
  | .restart => restart l tag body
  | .profile => profile l tag body
  | .evict => evict l tag body

/-- Every request is served by its kind's owner (R153, R154). -/
theorem exec_request (c : Instr) (k : ReqKind) (l : LinkNo) (tag : Byte) (body : List Byte) (s : State)
    (request : requestOf c = some (k, l, tag, body)) : exec c s = serve k l tag body (answer k l tag body) s := by
  cases c <;> cases request <;> rfl

/-- A request either does not come about, or is refused by a common check, or goes to its owner (R153, R154). -/
theorem serve_cases {k : ReqKind} {l : LinkNo} {tag : Byte} {body : List Byte} {owner : State → State} {s t : State}
    (served : serve k l tag body owner s = .next t) :
    t = s ∨ ∃ u, TakesFrame l { kind := k.code, tag := tag, body := body } s u ∧
      ((∃ r, commonChecks k l tag body u = some r ∧ t = refuse l tag r 0 u) ∨
        PassesChecks k l tag body u ∧ t = owner u) := by
  unfold serve at served
  split at served
  · exact .inl (Host.Outcome.next.inj served).symm
  · rename_i u taken
    refine .inr ⟨u, (take_eq_some_iff ..).1 taken, ?_⟩
    split at served
    · rename_i r failed
      exact .inl ⟨r, failed, (Host.Outcome.next.inj served).symm⟩
    · rename_i passed
      exact .inr ⟨(commonChecks_eq_none_iff ..).1 passed, (Host.Outcome.next.inj served).symm⟩

/-! ### Fields of a body -/

theorem fromBytes_append (xs : List Byte) (x : Byte) : fromBytes (xs ++ [x]) = fromBytes xs * 256 + x.toNat := by
  simp [fromBytes]

/-- An unsigned integer of `n` bytes is below 256^n (R170). -/
theorem fromBytes_lt (xs : List Byte) : fromBytes xs < 256 ^ xs.length := by
  induction xs using List.reverseRecOn with
  | nil => exact Nat.one_pos
  | append_singleton xs x ih =>
    have := x.isLt
    rw [fromBytes_append, List.length_append, List.length_singleton, pow_succ]
    omega

theorem fieldAt_lt (body : List Byte) (offset width : Nat) : fieldAt body offset width < 256 ^ width :=
  (fromBytes_lt _).trans_le (Nat.pow_le_pow_right (by decide) (List.length_take_le ..))

/-- A field of two bytes is at most 65,535. -/
theorem fieldAt_two_le (body : List Byte) (offset : Nat) : fieldAt body offset 2 ≤ 65535 :=
  Nat.le_of_lt_succ (fieldAt_lt body offset 2)

/-! ### Requests that name a block (R10) -/

/-- An admitted block is the translation of a block that passes the checks and the search. -/
theorem admits_of_admitBlock {l : LinkNo} {q b : Block} {s : State} (admitted : admitBlock l q s = .ok b) :
    ∃ w, Admits s l q w ∧ b = w.translate q := by
  unfold admitBlock at admitted
  split at admitted
  · cases admitted
  · rename_i sound
    split at admitted
    · cases admitted
    · rename_i w found
      obtain ⟨exp, aligned⟩ := (blockFault_eq_none_iff q).1 sound
      exact ⟨w, ⟨exp, aligned, (findWindow_eq_some_iff ..).1 found⟩, (Except.ok.inj admitted).symm⟩

theorem admits_of_admitAcquire {l : LinkNo} {q b : Block} {code : Byte} {m : Mode} {s : State}
    (admitted : admitAcquire l q code s = .ok (b, m)) :
    ∃ w, Admits s l q w ∧ Mode.ofCode code = some m ∧ ¬ (m = .exclusive ∧ w.access = .sharedOnly) ∧ b = w.translate q := by
  unfold admitAcquire at admitted
  split at admitted
  · cases admitted
  · cases admitted
  · rename_i n sound mode
    split at admitted
    · cases admitted
    · rename_i w found
      split at admitted
      · cases admitted
      · rename_i access
        obtain ⟨rfl, rfl⟩ := Prod.mk.inj (Except.ok.inj admitted)
        obtain ⟨exp, aligned⟩ := (blockFault_eq_none_iff q).1 sound
        exact ⟨w, ⟨exp, aligned, (findWindow_eq_some_iff ..).1 found⟩, mode, access, rfl⟩

/-! ### Lock requests -/

theorem works_acquire (l : LinkNo) (tag : Byte) (body : List Byte) (s : State)
    (pass : PassesChecks .acquire l tag body s) : Works s (acquire l tag body s) := by
  obtain ⟨-, -, -, -, service, session, -, -⟩ := pass
  have running := service rfl
  have is_open := session rfl
  unfold acquire
  dsimp only
  split
  · exact works_refuse ..
  rename_i b m admitted
  obtain ⟨w, admits, -, -, rfl⟩ := admits_of_admitAcquire admitted
  split
  · rename_i blocked
    split
    · exact works_refuse ..
    unfold enterWaitList
    split
    · exact works_refuse ..
    · exact works_refuse ..
    · rename_i i room lowest
      obtain ⟨quota, -, notFull⟩ := (roomTest_eq_none_iff ..).1 room
      obtain ⟨free, -⟩ := (lowestFree_eq_some_iff ..).1 lowest
      refine .trans ?_ (works_reply ..)
      refine .trans ?_ (works_reserveHold ..)
      refine .trans ?_ (works_openTag ..)
      exact (Work.wait s i l _ w m tag _ _ running is_open free admits quota notFull blocked (fieldAt_two_le ..)
        (fieldAt_two_le ..)).works
  · rename_i open_
    unfold grantAtOnce
    split
    · exact works_refuse ..
    · exact works_refuse ..
    · rename_i i room lowest
      obtain ⟨quota, -, -⟩ := (roomTest_eq_none_iff ..).1 room
      obtain ⟨free, -⟩ := (lowestFree_eq_some_iff ..).1 lowest
      split
      · exact works_refuse ..
      · rename_i unspent
        refine .trans ?_ (works_reply ..)
        refine .trans ?_ (works_reserveHold ..)
        exact (Work.hold s i l _ w m _ running is_open free admits quota (Bool.eq_false_of_not_eq_true unspent)
          (Bool.eq_false_of_not_eq_true open_) (fieldAt_two_le ..)).works

theorem works_release (l : LinkNo) (tag : Byte) (body : List Byte) (s : State) : Works s (release l tag body s) := by
  have freed (i : RecNo) (m : Message) : Works s (reply l tag m (grantScan (freeHolding i (concludeConversion i s)))) :=
    (((works_concludeConversion i s).trans (works_freeHolding i _)).trans (works_grantScan _)).trans (works_reply ..)
  unfold release
  split
  · exact works_refuse ..
  · split
    · exact freed ..
    · exact freed ..
    all_goals exact works_refuse ..

theorem works_upgrade (l : LinkNo) (tag : Byte) (i : RecNo) (o : LinkNo) (b : Block) (token : Word) (hold : Option Hold)
    (wait : Nat) (s : State) (state : (s.record i).state = .held o b .shared token hold) (range : wait ≤ 65535) :
    Works s (upgrade l tag i o b token hold wait s) := by
  unfold upgrade
  split
  · rename_i others
    split
    · exact works_refuse ..
    · rename_i settled
      split
      · exact works_refuse ..
      · refine .trans ?_ (works_reply ..)
        refine .trans ?_ (works_openTag ..)
        exact (Work.convert s i o b token tag wait hold state others (Bool.eq_false_of_not_eq_true settled) range).works
  · rename_i alone
    split
    · exact works_refuse ..
    · rename_i unspent
      refine .trans ?_ (works_reply ..)
      exact (Work.exclude s i o b token hold (.inl ⟨_, state⟩) (Bool.eq_false_of_not_eq_true unspent)
        (Bool.eq_false_of_not_eq_true alone)).works

theorem works_convert (l : LinkNo) (tag : Byte) (body : List Byte) (s : State) : Works s (convert l tag body s) := by
  unfold convert
  dsimp only
  split
  · exact works_refuse ..
  · rename_i i _
    split
    · exact works_refuse ..
    · rename_i target o b mode token hold _ state
      split
      · exact works_refuse ..
      · rename_i differs
        split
        · exact ((Work.share s i o b token hold (.inl ⟨mode, state⟩)).works.trans (works_grantScan _)).trans
            (works_reply ..)
        · refine works_upgrade l tag i o b token hold _ s ?_ (fieldAt_two_le ..)
          cases mode with
          | shared => exact state
          | exclusive => exact absurd rfl differs
    · exact works_refuse ..

theorem works_watch (l : LinkNo) (tag : Byte) (body : List Byte) (s : State) (pass : PassesChecks .watch l tag body s) :
    Works s (watch l tag body s) := by
  obtain ⟨-, -, -, -, service, session, -, -⟩ := pass
  have running := service rfl
  have is_open := session rfl
  unfold watch
  dsimp only
  split
  · exact works_refuse ..
  rename_i b admitted
  obtain ⟨w, admits, rfl⟩ := admits_of_admitBlock admitted
  split
  · rename_i held
    split
    · exact works_refuse ..
    unfold enterWatchList
    split
    · exact works_refuse ..
    · exact works_refuse ..
    · rename_i i room lowest
      obtain ⟨quota, -, notFull⟩ := (roomTest_eq_none_iff ..).1 room
      obtain ⟨free, -⟩ := (lowestFree_eq_some_iff ..).1 lowest
      refine .trans ?_ (works_reply ..)
      refine .trans ?_ (works_openTag ..)
      exact (Work.watch s i l _ w tag _ running is_open free admits quota notFull held (fieldAt_two_le ..)).works
  · exact works_reply ..

theorem works_query (l : LinkNo) (tag : Byte) (body : List Byte) (s : State) : Works s (query l tag body s) := by
  unfold query
  split
  · exact works_refuse ..
  · exact works_reply ..

/-- The counter that SET_FLOOR leaves: the greater of itself and the floor (R32). -/
def floored (tokens : Word) (body : List Byte) : Word := BitVec.ofNat 32 (max tokens.toNat (fieldAt body 0 4))

/-- Both the counter and the floor fit the counter's width. -/
theorem floored_toNat (tokens : Word) (body : List Byte) :
    (floored tokens body).toNat = max tokens.toNat (fieldAt body 0 4) := by
  have := tokens.isLt
  have := fieldAt_lt body 0 4
  simp only [floored, BitVec.toNat_ofNat]
  omega

theorem setFloor_eq (l : LinkNo) (tag : Byte) (body : List Byte) (s : State) :
    setFloor l tag body s =
      withReply l tag (.doneFloor (floored s.tokens body)) { s with tokens := floored s.tokens body } := by
  have width : (BitVec.ofNat 32 (fieldAt body 0 4)).toNat = fieldAt body 0 4 := by
    simp only [BitVec.toNat_ofNat]
    exact Nat.mod_eq_of_lt (fieldAt_lt body 0 4)
  have raised : (if s.tokens < BitVec.ofNat 32 (fieldAt body 0 4) then
      { s with tokens := BitVec.ofNat 32 (fieldAt body 0 4) } else s) = { s with tokens := floored s.tokens body } := by
    split
    · rename_i below
      rw [BitVec.lt_def, width] at below
      rw [floored, max_eq_right below.le]
    · rename_i above
      rw [BitVec.not_lt, BitVec.le_def, width] at above
      rw [floored, max_eq_left above, BitVec.ofNat_toNat, BitVec.setWidth_eq]
  unfold setFloor
  dsimp only
  rw [raised]
  rfl

theorem works_setFloor (l : LinkNo) (tag : Byte) (body : List Byte) (s : State) : Works s (setFloor l tag body s) := by
  rw [setFloor_eq, ← reply_eq]
  refine .trans ?_ (works_reply ..)
  refine (Work.floor s _ ?_).works
  rw [BitVec.le_def, floored_toNat]
  exact le_max_left ..

/-! ### Barrier, session and control requests -/

theorem works_arrive (l : LinkNo) (tag : Byte) (body : List Byte) (s : State) (pass : PassesChecks .arrive l tag body s) :
    Works s (arrive l tag body s) := by
  obtain ⟨-, -, -, -, service, -, -, -⟩ := pass
  unfold arrive
  dsimp only
  split
  · exact works_refuse ..
  · rename_i g _
    split
    · exact works_refuse ..
    · split
      · exact works_refuse ..
      · split
        · exact (works_passRound ..).trans (works_reply ..)
        · split
          · exact works_refuse ..
          · refine .trans ?_ (works_reply ..)
            refine .trans ?_ (works_openTag ..)
            exact (Work.arrive s g l tag _ (service rfl) (fieldAt_two_le ..)).works

theorem works_renew (l : LinkNo) (tag : Byte) (body : List Byte) (s : State) : Works s (renew l tag body s) :=
  works_reply ..

theorem works_status (l : LinkNo) (tag : Byte) (body : List Byte) (s : State) : Works s (status l tag body s) := by
  unfold status
  split
  · refine .trans ?_ (works_reply ..)
    exact works_putLink s l _ rfl
  · exact works_reply ..
  · exact works_refuse ..

theorem works_cancel (l : LinkNo) (tag : Byte) (body : List Byte) (s : State) : Works s (cancel l tag body s) := by
  unfold cancel
  split
  · exact works_refuse ..
  · exact ((works_cancelEntry l _ s).trans (works_scanAfterCancel ..)).trans (works_reply ..)

theorem works_profile (l : LinkNo) (tag : Byte) (body : List Byte) (s : State) : Works s (profile l tag body s) := by
  unfold profile
  split
  · exact works_refuse ..
  · exact works_reply ..

end Sys2Proof.Machine
end

section
/-! PROOFS. Every command as a sequence of moves: the work of the blocks, the dispatcher's taking of a frame, the changes of
session states, and service control. What each move keeps, every command keeps. -/

namespace Sys2Proof.Machine

open Sys2Proof.Safety

/-! ### Moves -/

/-- One move of the part between resets, the passing of time apart. -/
inductive Move : State → State → Prop where
  | work {s t : State} (h : Work s t) : Move s t
  /-- The dispatcher takes a frame (R151, R152). -/
  | take {s t : State} (l : LinkNo) (f : Frame) (taken : TakesFrame l f s t) : Move s t
  /-- A session opens (R109). -/
  | opens (s : State) (l : LinkNo) (running : s.service = .service) (closed : (s.session l).state = .closed) :
      Move s (putSessState l (.opened (s.due (s.settings l).lease) s.epoch) s)
  /-- A lease is renewed (R113). -/
  | renew (s : State) (l : LinkNo) (d : Instant) (e : Half) (is_open : (s.session l).state = .opened d e) :
      Move s (putSessState l (.opened (s.due (s.settings l).lease) e) s)
  /-- A session closes (R110, R111, R117, R118). -/
  | close (s : State) (l : LinkNo) : Move s (putSessState l .closed s)
  /-- A session lapses (R114, R116). -/
  | lapse (s : State) (l : LinkNo) (is_open : (s.session l).isOpen = true) : Move s (putSessState l .lapsed s)
  /-- In SETUP a value within its range is written into the profile (R162 to R164). -/
  | write (s : State) (p : Profile) (setup : s.service = .setup)
      (range : ProfileInRange s → ProfileInRange { s with profile := p })
      (settings : ∀ l, p.links.get l = s.settings l ∨ LinkSettingsInRange (p.links.get l)) :
      Move s { s with profile := p }
  /-- Service starts (R165). -/
  | start (s : State) (high : s.resetHeld = false) : Move s (startService s)
  /-- RESTART, up to its reply (R166). -/
  | restart (s : State) : Move s (clearGroups (clearPool (endSessions { s with service := .setup })))

/-- A sequence of moves. -/
abbrev Moves : State → State → Prop := Relation.ReflTransGen Move

theorem Works.moves {s t : State} (h : Works s t) : Moves s t := Relation.ReflTransGen.mono (fun _ _ => Move.work) _ _ h

theorem Move.moves {s t : State} (h : Move s t) : Moves s t := .single h

/-- What every move keeps, a sequence of moves keeps. -/
theorem Moves.keeps {P : State → Prop} (move : ∀ {s t}, Move s t → P s → P t) {s t : State} (h : Moves s t) (start : P s) :
    P t := by
  induction h with
  | refl => exact start
  | tail _ m ih => exact move m ih

/-! ### Changes of a session's state -/

/-- After a write a session has the state written, and the others the state they had. -/
theorem session_putSessState (l m : LinkNo) (x : SessState) (s : State) :
    (putSessState l x s).session m = if l = m then { s.session l with state := x } else s.session m :=
  State.session_putSession ..

/-- An OPEN session holds a lease and the epoch at open (R108). -/
theorem Session.isOpen_cases {x : Session} (is_open : x.isOpen = true) : ∃ d e, x.state = .opened d e := by
  unfold Session.isOpen at is_open
  cases h : x.state with
  | opened d e => exact ⟨d, e, rfl⟩
  | closed | lapsed => simp [h] at is_open

theorem Session.isOpen_of_opened {x : Session} {d : Instant} {e : Half} (h : x.state = .opened d e) : x.isOpen = true := by
  simp [Session.isOpen, h]

theorem moves_lapse (l : LinkNo) (cause : EndCause) (s : State) (is_open : (s.session l).isOpen = true) :
    Moves s (lapse l cause s) :=
  (Move.lapse s l is_open).moves.trans (works_lapse l cause s).moves

theorem moves_closeSequence (l : LinkNo) (s : State) : Moves s (closeSequence l s) :=
  ((works_tagsCancelled l s).moves.trans (Move.close _ l).moves).trans (works_closeSequence l s).moves

theorem moves_renewLease (l : LinkNo) (s : State) : Moves s (renewLease l s) := by
  unfold renewLease
  split
  · rename_i d e is_open
    exact (Move.renew s l d e is_open).moves
  · exact .refl
  · exact .refl

theorem moves_sessionAtBreak (l : LinkNo) (s : State) : Moves s (sessionAtBreak l s) := by
  unfold sessionAtBreak
  split
  · refine .trans ?_ (works_failureEnd l _).moves
    refine .trans ?_ (works_dropTags l _).moves
    exact (Move.close s l).moves
  · exact (Move.close s l).moves
  · exact .refl

/-! ### Receiver -/

theorem moves_admitFrame (l : LinkNo) (f : Frame) (s : State) : Moves s (admitFrame l f s) := by
  unfold admitFrame
  dsimp only
  refine (moves_renewLease l s).trans (Works.moves ?_)
  split
  · rename_i room
    refine (Work.link _ l _ ?_).works
    have : ((renewLease l s).link l).intake.length < 3 := room
    simp only [List.length_append, List.length_singleton]
    omega
  · exact works_countFault ..

theorem moves_rxEffect (l : LinkNo) (e : RxEvent) (s : State) : Moves s (rxEffect l e s) := by
  unfold rxEffect
  split
  · exact .refl
  · exact (works_countFault ..).moves
  · split
    · exact .refl
    · split
      · exact moves_admitFrame ..
      · exact (works_countFault ..).moves

theorem moves_endCharacter (l : LinkNo) (v : Byte) (faulty : Bool) (s : State) : Moves s (endCharacter l v faulty s) := by
  unfold endCharacter
  refine .trans (Works.moves (works_putLink s l _ ?_)) (moves_rxEffect l _ _)
  rfl

/-! ### Setting requests (R162 to R164) -/

/-- No field out of range. -/
theorem SetLinkReq.badField_eq_none {q : SetLinkReq} {management : Option LinkNo} (ok : q.badField management = none) :
    LinkSettingsInRange q.settings := by
  rw [SetLinkReq.badField, firstFailure_eq_none_iff] at ok
  simp at ok
  obtain ⟨-, -, baud, gap, lease, quota, weight⟩ := ok
  simp only [LinkSettingsInRange, SetLinkReq.settings]
  omega

theorem SetWindowReq.badField_eq_none {q : SetWindowReq} (ok : q.badField = none) :
    q.exp ≤ 24 ∧ q.localBase % 2 ^ q.exp = 0 ∧ q.globalBase % 2 ^ q.exp = 0 := by
  rw [SetWindowReq.badField, firstFailure_eq_none_iff] at ok
  simp at ok
  obtain ⟨-, -, exp, localBase, globalBase, -⟩ := ok
  exact ⟨exp, localBase, globalBase⟩

theorem SetGroupReq.badField_eq_none {q : SetGroupReq} (ok : q.badField = none) (m : GroupMode) :
    GroupDefInRange { members := q.members.setWidth 6, mode := m, k := q.k } := by
  rw [SetGroupReq.badField, firstFailure_eq_none_iff] at ok
  simp at ok
  obtain ⟨-, -, -, ⟨low, high⟩, members⟩ := ok
  exact ⟨by simp only; omega, high, members⟩

theorem settings_writeLinks (s : State) (n m : LinkNo) (new : LinkSettings) :
    ({ s with profile := { s.profile with links := s.profile.links.set n new } } : State).settings m =
      if n = m then new else s.settings m := Vector.get_set_fin ..

theorem windows_writeWindow (s : State) (n m : LinkNo) (i : WindowNo) (w : Window) :
    (writeWindow n i w s).windows m = if n = m then (s.windows n).set i w else s.windows m := Vector.get_set_fin ..

theorem groupDef_writeGroup (s : State) (g h : GroupNo) (d : GroupDef) :
    (writeGroup g d s).groupDef h = if g = h then d else s.groupDef h := Vector.get_set_fin ..

theorem move_writeLinks (s : State) (n : LinkNo) (new : LinkSettings) (setup : s.service = .setup)
    (range : LinkSettingsInRange new) :
    Move s { s with profile := { s.profile with links := s.profile.links.set n new } } := by
  refine .write s _ setup (fun ⟨links, windows, groups⟩ => ⟨fun m => ?_, windows, groups⟩) fun m => ?_
  · rw [settings_writeLinks]
    split
    · exact range
    · exact links m
  · rw [Vector.get_set_fin]
    split
    · exact .inr range
    · exact .inl rfl

theorem move_writeWindow (s : State) (n : LinkNo) (i : WindowNo) (w : Window) (setup : s.service = .setup)
    (range : WindowInRange w) : Move s (writeWindow n i w s) := by
  refine .write s _ setup (fun ⟨links, windows, groups⟩ => ⟨links, fun m j => ?_, groups⟩) fun m => .inl rfl
  show WindowInRange (((writeWindow n i w s).windows m).get j)
  rw [windows_writeWindow]
  split
  · rw [Vector.get_set_fin]
    split
    · exact range
    · exact windows n j
  · exact windows m j

theorem move_writeGroup (s : State) (g : GroupNo) (d : GroupDef) (setup : s.service = .setup) (range : GroupDefInRange d) :
    Move s (writeGroup g d s) := by
  refine .write s _ setup (fun ⟨links, windows, groups⟩ => ⟨links, windows, fun h => ?_⟩) fun m => .inl rfl
  show GroupDefInRange ((writeGroup g d s).groupDef h)
  rw [groupDef_writeGroup]
  split
  · exact range
  · exact groups h

theorem works_disableLink (l : LinkNo) (s : State) : Works s (disableLink l s) := works_putLink_nil s l _ rfl

theorem works_enableLink (l : LinkNo) (s : State) : Works s (enableLink l s) := works_putLink s l _ rfl

theorem moves_writeLink (n : LinkNo) (new : LinkSettings) (s : State) (setup : s.service = .setup)
    (range : LinkSettingsInRange new) : Moves s (writeLink n new s) := by
  have written := (move_writeLinks s n new setup range).moves
  have switched (t : State) : Works t (if (s.settings n).enabled && !new.enabled then disableLink n t
      else if !(s.settings n).enabled && new.enabled then enableLink n t else t) := by
    split
    · exact works_disableLink n t
    · split
      · exact works_enableLink n t
      · exact .refl
  unfold writeLink
  dsimp only
  split
  · exact written.trans (switched _).moves
  · refine (written.trans (switched _).moves).trans (works_adopt n _).moves

theorem moves_setLink (l : LinkNo) (tag : Byte) (body : List Byte) (s : State)
    (pass : PassesChecks .setLink l tag body s) : Moves s (setLink l tag body s) := by
  obtain ⟨-, -, -, setup, -, -, -, -⟩ := pass
  unfold setLink
  dsimp only
  split
  · exact (works_refuse ..).moves
  · exact (works_refuse ..).moves
  · rename_i n ok _
    exact (moves_writeLink n _ s (setup rfl) (SetLinkReq.badField_eq_none ok)).trans (works_queueFree ..).moves

theorem moves_setWindow (l : LinkNo) (tag : Byte) (body : List Byte) (s : State)
    (pass : PassesChecks .setWindow l tag body s) : Moves s (setWindow l tag body s) := by
  obtain ⟨-, -, -, setup, -, -, -, -⟩ := pass
  unfold setWindow
  dsimp only
  split
  · exact (works_refuse ..).moves
  · rename_i n i a ok _ _ _
    refine .trans (Move.moves ?_) (works_reply ..).moves
    obtain ⟨exp, localBase, globalBase⟩ := SetWindowReq.badField_eq_none ok
    exact move_writeWindow s n i _ (setup rfl)
      ⟨exp, fieldAt_lt body 2 3, fieldAt_lt body 6 3, localBase, globalBase⟩
  · exact (works_refuse ..).moves

theorem moves_setGroup (l : LinkNo) (tag : Byte) (body : List Byte) (s : State)
    (pass : PassesChecks .setGroup l tag body s) : Moves s (setGroup l tag body s) := by
  obtain ⟨-, -, -, setup, -, -, -, -⟩ := pass
  unfold setGroup
  dsimp only
  split
  · exact (works_refuse ..).moves
  · rename_i g m ok _ _
    refine .trans (Move.moves ?_) (works_reply ..).moves
    exact move_writeGroup s g _ (setup rfl) (SetGroupReq.badField_eq_none ok m)
  · exact (works_refuse ..).moves

/-! ### The owners' answers -/

theorem moves_openSession (l : LinkNo) (tag : Byte) (body : List Byte) (s : State)
    (pass : PassesChecks .openSession l tag body s) : Moves s (openSession l tag body s) := by
  obtain ⟨-, -, -, -, service, -, -, -⟩ := pass
  unfold openSession
  split
  · exact (works_refuse ..).moves
  · exact (works_refuse ..).moves
  · rename_i closed
    refine .trans ?_ (works_reply ..).moves
    exact (Move.opens s l (service rfl) closed).moves.trans (works_reserve l _).moves

theorem moves_closeSession (l : LinkNo) (tag : Byte) (body : List Byte) (s : State) :
    Moves s (closeSession l tag body s) := by
  unfold closeSession
  split
  · exact (works_refuse ..).moves
  · exact (Move.close s l).moves.trans (works_reply ..).moves
  · exact (moves_closeSequence l s).trans (works_reply ..).moves

theorem moves_evict (l : LinkNo) (tag : Byte) (body : List Byte) (s : State) : Moves s (evict l tag body s) := by
  unfold evict
  split
  · exact (works_refuse ..).moves
  · rename_i n _
    split
    · exact (works_refuse ..).moves
    · split
      · exact (works_refuse ..).moves
      · rename_i is_open
        exact (moves_lapse n .evicted s (by simpa using is_open)).trans (works_reply ..).moves

/-- The owner of a request that has passed the common checks answers it by moves. -/
theorem moves_answer (k : ReqKind) (l : LinkNo) (tag : Byte) (body : List Byte) (s : State)
    (high : s.resetHeld = false) (pass : PassesChecks k l tag body s) : Moves s (answer k l tag body s) := by
  cases k with
  | openSession => exact moves_openSession l tag body s pass
  | closeSession => exact moves_closeSession l tag body s
  | renew => exact (works_renew l tag body s).moves
  | status => exact (works_status l tag body s).moves
  | acquire => exact (works_acquire l tag body s pass).moves
  | release => exact (works_release l tag body s).moves
  | convert => exact (works_convert l tag body s).moves
  | cancel => exact (works_cancel l tag body s).moves
  | watch => exact (works_watch l tag body s pass).moves
  | query => exact (works_query l tag body s).moves
  | arrive => exact (works_arrive l tag body s pass).moves
  | setLink => exact moves_setLink l tag body s pass
  | setWindow => exact moves_setWindow l tag body s pass
  | setGroup => exact moves_setGroup l tag body s pass
  | setFloor => exact (works_setFloor l tag body s).moves
  | start => exact (Move.start s high).moves.trans (works_reply ..).moves
  | restart => exact (Move.restart s).moves.trans (works_reply ..).moves
  | profile => exact (works_profile l tag body s).moves
  | evict => exact moves_evict l tag body s

/-- A frame is taken only while RESET_N is high (R158), and what remains is as high. -/
theorem resetHeld_of_takesFrame {l : LinkNo} {f : Frame} {s t : State} (taken : TakesFrame l f s t) :
    t.resetHeld = false := by
  obtain ⟨rest, turn, high, -, -, -, rfl⟩ := taken
  exact high

theorem moves_serve {k : ReqKind} {l : LinkNo} {tag : Byte} {body : List Byte} {s t : State}
    (served : serve k l tag body (answer k l tag body) s = .next t) : Moves s t := by
  rcases serve_cases served with rfl | ⟨u, taken, ⟨r, -, rfl⟩ | ⟨pass, rfl⟩⟩
  · exact .refl
  · exact (Move.take l _ taken).moves.trans (works_refuse ..).moves
  · exact (Move.take l _ taken).moves.trans (moves_answer k l tag body u (resetHeld_of_takesFrame taken) pass)

end Sys2Proof.Machine
end

section
/-! PROOFS. Every step as moves, a reset, or the passing of time; the induction over steps, packaged once. -/

namespace Sys2Proof.Machine

open Sys2Proof.Safety

/-! ### Every command -/

/-- A lease that may expire is that of an OPEN session. -/
theorem isOpen_of_leaseDeadline {x : Session} {d : Instant} (armed : x.leaseDeadline = some d) : x.isOpen = true := by
  unfold Session.leaseDeadline at armed
  split at armed
  · rename_i is_open; exact Session.isOpen_of_opened is_open
  · cases armed
  · cases armed

/-- A deadline that expires is armed and reached, and RESET_N is high (R127, R158). -/
theorem expires_iff (s : State) (o : Option Instant) :
    s.expires o = true ↔ s.resetHeld = false ∧ ∃ d, o = some d ∧ s.reached d = true := by
  unfold State.expires
  cases o <;> simp

/-- The commands that are neither a reset nor the tick. -/
def isWorking : Instr → Prop
  | .powerOn .. | .resetNAssert | .resetNRelease .. | .uptimeTick => False
  | _ => True

/-- UNKNOWN_KIND_FRAME takes its frame and refuses it, or does not come about (R153). -/
theorem execUnknownKindFrame_cases {l : LinkNo} {kind tag : Byte} {body : List Byte} {s t : State}
    (h : execUnknownKindFrame l kind tag body s = .next t) :
    t = s ∨ ∃ u, TakesFrame l { kind := kind, tag := tag, body := body } s u ∧ ReqKind.ofCode kind = none ∧
      t = refuse l tag .unknownKind 0 u := by
  unfold execUnknownKindFrame at h
  split at h
  · rename_i u unknown taken
    exact .inr ⟨u, (take_eq_some_iff ..).1 taken, unknown, (Host.Outcome.next.inj h).symm⟩
  · exact .inl (Host.Outcome.next.inj h).symm

/-- A command that acts under a test does nothing when the test fails. -/
theorem outcome_ite {p : Prop} [Decidable p] {s t u : State}
    (h : (if p then Host.Outcome.next u else .next s : Host.Outcome State Fault Refusal) = .next t) :
    t = s ∨ p ∧ t = u := by
  split at h
  · rename_i hp; exact .inr ⟨hp, (Host.Outcome.next.inj h).symm⟩
  · exact .inl (Host.Outcome.next.inj h).symm

/-- Every command but the resets and the tick is a sequence of moves. -/
theorem moves_exec {c : Instr} {s t : State} (working : isWorking c) (h : exec c s = .next t) : Moves s t := by
  have request {k l tag body} (r : requestOf c = some (k, l, tag, body)) : Moves s t :=
    moves_serve ((exec_request c k l tag body s r).symm.trans h)
  cases c with
  | powerOn | resetNAssert | resetNRelease | uptimeTick => exact working.elim
  | leaseDeadlineExpiry l =>
    rcases outcome_ite h with rfl | ⟨due, rfl⟩
    · exact .refl
    · obtain ⟨-, d, armed, -⟩ := (expires_iff s _).1 due
      exact moves_lapse l .lapsed s (isOpen_of_leaseDeadline armed)
  | lockWaitDeadlineExpiry i | convertWaitDeadlineExpiry i | watchWaitDeadlineExpiry i =>
    rcases outcome_ite h with rfl | ⟨-, next⟩
    · exact .refl
    · rw [next]
      exact (works_expireWait i s).moves
  | holdDeadlineExpiry i =>
    rcases outcome_ite h with rfl | ⟨-, next⟩
    · exact .refl
    · rw [next]
      exact (works_expireHold i s).moves
  | arrivalDeadlineExpiry g l =>
    change execArrivalDeadlineExpiry g l s = .next t at h
    unfold execArrivalDeadlineExpiry at h
    split at h
    · rcases outcome_ite h with rfl | ⟨-, rfl⟩
      · exact .refl
      · exact (works_expireArrival g _ s).moves
    · cases h; exact .refl
  | gapTimerExpiry l =>
    rcases outcome_ite h with rfl | ⟨-, rfl⟩
    · exact .refl
    · exact Works.moves ((works_lineReturned l s).trans (works_runGapTimer l _ _))
  | lengthFault l v | frameReceived l v | characterReceivedWhole l v =>
    rcases outcome_ite h with rfl | ⟨-, rfl⟩
    · exact .refl
    · exact moves_endCharacter l v false s
  | stopBitFault l v =>
    rcases outcome_ite h with rfl | ⟨-, rfl⟩
    · exact .refl
    · exact (works_countFault l .framing s).moves.trans (moves_endCharacter l v true _)
  | breakEnd l =>
    rcases outcome_ite h with rfl | ⟨-, rfl⟩
    · exact .refl
    · exact (works_clearLink l s).moves.trans (moves_sessionAtBreak l _)
  | frameTransmitStart l =>
    change execFrameTransmitStart l s = .next t at h
    unfold execFrameTransmitStart at h
    split at h
    · rcases outcome_ite h with rfl | ⟨-, rfl⟩
      · exact .refl
      · refine Works.moves (works_putLink s l _ ?_)
        rfl
    · cases h; exact .refl
  | entryTransmitted l =>
    rcases outcome_ite h with rfl | ⟨-, rfl⟩
    · exact .refl
    · exact (works_runTransmitter l _ s).moves
  | startEdge l =>
    rcases outcome_ite h with rfl | ⟨-, rfl⟩
    · exact .refl
    · refine Works.moves ((works_lineReturned l s).trans (works_putLink _ l _ ?_))
      rfl
  | unknownKindFrame l kind tag body =>
    rcases execUnknownKindFrame_cases h with rfl | ⟨u, taken, -, rfl⟩
    · exact .refl
    · exact (Move.take l _ taken).moves.trans (works_refuse ..).moves
  | openSession | closeSession | renew | status | acquire | release | convert | cancel | watch | query | arrive | setLink
    | setWindow | setGroup | setFloor | start | restart | profile | evict => exact request rfl

/-! ### The expiries that time delivers (R127) -/

/-- A fold of operations that are each a sequence of moves is one. -/
theorem moves_foldl {α : Type} (f : State → α → State) (step : ∀ t a, Moves t (f t a)) (list : List α) (s : State) :
    Moves s (list.foldl f s) := by
  induction list generalizing s with
  | nil => exact .refl
  | cons a rest ih => exact (step s a).trans (ih _)

/-- An overdue deadline is armed. -/
theorem overdue_armed {later : Instant} {o : Option Instant} (h : overdue later o = true) :
    ∃ d, o = some d ∧ LatestPassed later d := by
  cases o with
  | none => cases h
  | some d => exact ⟨d, rfl, (overdue_some_iff later d).1 h⟩

theorem moves_deliverOverdue (later : Instant) (s : State) : Moves s (deliverOverdue later s) := by
  refine .trans (b := deliverLeases later s) ?_ (Works.moves ?_)
  · refine moves_foldl _ (fun t l => ?_) _ s
    split
    · rename_i late
      obtain ⟨d, armed, -⟩ := overdue_armed late
      exact moves_lapse l .lapsed t (isOpen_of_leaseDeadline armed)
    · exact .refl
  refine .trans (b := deliverWaits later (deliverLeases later s)) ?_ ?_
  · refine works_foldl _ (fun t i => ?_) _ _
    split
    · exact works_expireWait i t
    · exact .refl
  refine .trans (b := deliverHolds later (deliverWaits later (deliverLeases later s))) ?_ ?_
  · refine works_foldl _ (fun t i => ?_) _ _
    split
    · exact works_expireHold i t
    · exact .refl
  · refine works_foldl _ (fun t g => ?_) _ _
    split
    · exact works_expireArrival g _ t
    · exact .refl

/-! ### Invariants -/

/-- A predicate that every move, reset and passing of time keeps. -/
structure Kept (P : State → Prop) : Prop where
  move : ∀ {s t}, Move s t → P s → P t
  instant : ∀ {s} (now : Instant), P s → P (s.atInstant now)
  queue : ∀ {s} (waiting : List Instr), P s → P { s with pending := waiting }
  power : ∀ {s} (straps : Straps), P s → P (latchStraps straps { State.reset with pending := s.pending })
  falling : ∀ {s}, P s → P (resetValues s)
  rising : ∀ {s} (straps : Straps), s.resetHeld = true → P s → P (latchStraps straps { s with resetHeld := false })

/-- What every move, reset and passing of time keeps, every command keeps. -/
theorem Kept.exec {P : State → Prop} (kept : Kept P) {c : Instr} {s t : State} (h : exec c s = .next t) (start : P s) :
    P t := by
  by_cases working : isWorking c
  · exact (moves_exec working h).keeps kept.move start
  cases c with
  | powerOn m a => cases h; exact kept.power _ start
  | resetNAssert =>
    change execResetNAssert s = .next t at h
    unfold execResetNAssert at h
    split at h
    · cases h; exact start
    · cases h; exact kept.falling start
  | resetNRelease m a =>
    rcases outcome_ite h with rfl | ⟨held, rfl⟩
    · exact start
    · exact kept.rising _ held start
  | uptimeTick =>
    change execUptimeTick s = .next t at h
    unfold execUptimeTick at h
    split at h
    · cases h; exact start
    · rw [← Host.Outcome.next.inj h]
      exact kept.instant _ ((moves_deliverOverdue _ s).keeps kept.move start)
  | _ => exact absurd trivial working

/-- And every step, the idle step included. -/
theorem Kept.step {P : State → Prop} (kept : Kept P) {s t : State} (h : step s = .next t) (start : P s) : P t := by
  unfold Machine.step at h
  split at h
  · rw [← Host.Outcome.next.inj h]
    unfold clkinPeriod
    split
    · exact start
    · exact kept.instant _ (Moves.keeps kept.move ((moves_deliverOverdue _ s).trans (works_linePeriod _).moves) start)
  · exact kept.exec h (kept.queue _ start)

end Sys2Proof.Machine
end

section
/-! PROOFS. Invariants of the pool: holdings compatible (R41), tokens distinct and within the counter (R30), the profile in its
ranges and blocks well-formed (R161, R13, R16). -/

namespace Sys2Proof.Machine

open Sys2Proof.Safety

/-! ### A record rewritten -/

/-- The state of a record after one has been rewritten. -/
theorem state_putState (s : State) (i j : RecNo) (x : RecState) :
    ((s.putState i x).record j).state = if i = j then x else (s.record j).state := by
  rw [State.putState, State.record_putRecord]
  split <;> rfl

/-- A freed record is FREE, another is as it was. -/
theorem state_freeRecord (i j : RecNo) (s : State) :
    ((freeRecord i s).record j).state = if i = j then .free else (s.record j).state := by
  cases owner : (s.record i).state.owner with
  | none =>
    have free : (s.record i).state = .free := by
      cases h : (s.record i).state <;> simp [h, RecState.owner] at owner ⊢
    rw [freeRecord_free i s free]
    split
    · rename_i same; rw [← same, free]
    · rfl
  | some o =>
    rw [record_freeRecord i s o owner]
    split <;> rfl

/-- A reset frees every record (R20). -/
theorem state_afterReset (r : Record) : r.afterReset.state = .free := by
  unfold Record.afterReset
  split
  · assumption
  · rfl

theorem record_clearPool (s : State) (i : RecNo) : (clearPool s).record i = (s.record i).afterReset :=
  mapVector_get ..

theorem state_resetValues (s : State) (i : RecNo) : ((resetValues s).record i).state = .free := by
  rw [show (resetValues s).record i = (s.record i).afterReset from mapVector_get .., state_afterReset]

theorem record_reset (i : RecNo) : State.reset.record i = Record.atPowerOn := by
  simp [State.record, State.reset, Vector.get_eq_getElem]

/-- The strap levels do not touch the pool. -/
theorem latchStraps_pool (straps : Straps) (s : State) :
    (latchStraps straps s).records = s.records ∧ (latchStraps straps s).tokens = s.tokens ∧
    (latchStraps straps s).profile = s.profile := by
  unfold latchStraps
  dsimp only
  split <;> exact ⟨rfl, rfl, rfl⟩

/-- RESTART frees every record (R77, R166). -/
theorem state_cleared (u : State) (i : RecNo) : ((clearGroups (clearPool u)).record i).state = .free := by
  rw [show (clearGroups (clearPool u)).record i = (clearPool u).record i from rfl, record_clearPool, state_afterReset]

/-- Clearing the pool and the groups leaves the profile. -/
theorem profile_cleared (u : State) : (clearGroups (clearPool u)).profile = u.profile := rfl

/-! ### What RESTART does before it clears the pool -/

/-- Ending the sessions at RESTART leaves control state as it is. -/
theorem sessionAtRestart_control (s : State) (l : LinkNo) : SameControl s (sessionAtRestart s l) := by
  unfold sessionAtRestart
  split
  · have dropped := ((works_dropTags l s).trans (works_flush l _)).trans (works_queueReserved l 0 (.ended .restart) _)
    exact (Works.frame dropped).1
  · exact sameControl_refl s
  · exact sameControl_refl s

theorem endSessions_control (s : State) : SameControl s (endSessions s) := by
  unfold endSessions
  generalize List.finRange 6 = list
  induction list generalizing s with
  | nil => exact sameControl_refl s
  | cons l rest ih => exact sameControl_trans (sessionAtRestart_control s l) (ih _)

/-- The profile is part of the control state. -/
theorem profile_of_sameControl {s t : State} (h : SameControl s t) : t.profile = s.profile := by
  obtain ⟨-, -, -, -, -, -, profile, -, -⟩ := h
  exact profile

/-! ### The profile (R161) -/

theorem profileInRange_congr {s t : State} (same : t.profile = s.profile) (h : ProfileInRange s) : ProfileInRange t := by
  unfold ProfileInRange State.settings State.windows State.groupDef
  rw [same]
  exact h

/-- The default profile lies in the ranges (R161, Table 1-5, R89). -/
theorem profileInRange_atReset (s : State) (same : s.profile = Profile.atReset) : ProfileInRange s := by
  have default : ProfileInRange State.reset := by
    refine ⟨fun l => ?_, fun l i => ?_, fun g => ?_⟩
    · have : State.reset.settings l = LinkSettings.atReset := by
        simp [State.settings, State.reset, Profile.atReset, Vector.get_eq_getElem]
      rw [this]; unfold LinkSettingsInRange; decide
    · have : State.reset.windows l = windowsAtReset := by
        simp [State.windows, State.reset, Profile.atReset, Vector.get_eq_getElem]
      rw [this]; unfold WindowInRange; revert i; decide
    · have : State.reset.groupDef g = GroupDef.atReset := by
        simp [State.groupDef, State.reset, Profile.atReset, Vector.get_eq_getElem]
      rw [this]; unfold GroupDefInRange; decide
  exact profileInRange_congr same default

theorem profile_latchStraps (straps : Straps) (s : State) : (latchStraps straps s).profile = s.profile :=
  (latchStraps_pool straps s).2.2

/-- Every step keeps the profile in its ranges. -/
theorem kept_profileInRange : Kept ProfileInRange where
  move := by
    intro s t m h
    cases m with
    | work w => exact profileInRange_congr (profile_of_sameControl w.frame.1) h
    | take l f taken => obtain ⟨_, _, -, -, -, -, rfl⟩ := taken; exact h
    | opens | renew | close | lapse | start => exact h
    | write p _ range _ => exact range h
    | restart =>
      have ended := profile_of_sameControl (endSessions_control { s with service := .setup })
      exact profileInRange_congr ((profile_cleared _).trans ended) h
  instant _ h := h
  queue _ h := h
  power straps _ := profileInRange_atReset _ (profile_latchStraps straps _)
  falling _ := profileInRange_atReset _ rfl
  rising straps _ h := profileInRange_congr (profile_latchStraps straps _) h

/-! ### Predicates of records and tokens -/

/-- A predicate of records and token counter that holds of an empty pool and is kept by the work of the blocks is kept by
every step, beside a predicate that every step keeps. -/
theorem kept_of_pool {Q P : State → Prop} (side : Kept Q)
    (same : ∀ s t : State, t.records = s.records → t.tokens = s.tokens → P s → P t)
    (empty : ∀ {t : State}, (∀ i, (t.record i).state = .free) → P t)
    (work : ∀ {s t}, Work s t → Q s → P s → P t) : Kept fun s => Q s ∧ P s where
  move := by
    rintro s t m ⟨q, p⟩
    refine ⟨side.move m q, ?_⟩
    cases m with
    | work w => exact work w q p
    | take l f taken => obtain ⟨_, _, -, -, -, -, rfl⟩ := taken; exact same s _ rfl rfl p
    | opens | renew | close | lapse | start | write => exact same s _ rfl rfl p
    | restart => exact empty (state_cleared _)
  instant := fun {s} now h => ⟨side.instant now h.1, same s _ rfl rfl h.2⟩
  queue := fun {s} waiting h => ⟨side.queue waiting h.1, same s _ rfl rfl h.2⟩
  power straps h := by
    refine ⟨side.power straps h.1, empty fun i => ?_⟩
    rw [State.record, (latchStraps_pool straps _).1]
    exact congrArg Record.state (record_reset i)
  falling h := ⟨side.falling h.1, empty (state_resetValues _)⟩
  rising := fun {s} straps held h => by
    obtain ⟨records, tokens, -⟩ := latchStraps_pool straps { s with resetHeld := false }
    exact ⟨side.rising straps held h.1, same s _ records tokens h.2⟩

theorem kept_true : Kept fun _ => True where
  move _ h := h
  instant _ h := h
  queue _ h := h
  power _ h := h
  falling h := h
  rising _ _ h := h

/-! ### Holdings compatible (R41) -/

/-- Overlap is symmetric (R3). -/
theorem overlaps_comm (a b : Block) : a.overlaps b = b.overlaps a := by
  unfold Block.overlaps
  rw [Nat.max_comm]
  exact decide_eq_decide.2 eq_comm

/-- So is standing together. -/
theorem mayStandTogether_comm (x y : RecState) : mayStandTogether x y ↔ mayStandTogether y x := by
  cases x <;> cases y <;> simp [mayStandTogether, and_comm]

/-- A record is rewritten to one that stands together with every holding it overlaps. -/
theorem holdingsCompatible_rewrite {s t : State} (i : RecNo) (x : RecState)
    (record : ∀ j, (t.record j).state = if i = j then x else (s.record j).state)
    (fits : ∀ b, holdingBlock x = some b → ∀ j, j ≠ i → ∀ c, holdingBlock (s.record j).state = some c →
      b.overlaps c = true → mayStandTogether x (s.record j).state)
    (before : HoldingsCompatible s) : HoldingsCompatible t := by
  intro j k ne b c hb hc meets
  rw [record] at hb hc ⊢
  rw [record]
  by_cases ij : i = j
  · subst ij
    rw [if_pos rfl] at hb ⊢
    rw [if_neg ne] at hc ⊢
    exact fits b hb k ne.symm c hc meets
  · rw [if_neg ij] at hb ⊢
    by_cases ik : i = k
    · subst ik
      rw [if_pos rfl] at hc ⊢
      rw [mayStandTogether_comm]
      exact fits c hc j ne b hb ((overlaps_comm c b).trans meets)
    · rw [if_neg ik] at hc ⊢
      exact before j k ne b c hb hc meets

/-- A record that is no holding stands together with every other. -/
theorem holdingsCompatible_rewrite_none {s t : State} (i : RecNo) (x : RecState)
    (record : ∀ j, (t.record j).state = if i = j then x else (s.record j).state) (idle : holdingBlock x = none)
    (before : HoldingsCompatible s) : HoldingsCompatible t :=
  holdingsCompatible_rewrite i x record (fun b hb => by rw [idle] at hb; cases hb) before

/-- What stands together with a holding stands together with it once it is HELD SHARED. -/
theorem mayStandTogether_share {x y : RecState} {b : Block} (o : LinkNo) (c : Block) (token : Word) (hold : Option Hold)
    (holding : holdingBlock x = some b) (h : mayStandTogether x y) : mayStandTogether (.held o c .shared token hold) y := by
  cases x with
  | free | waiting | watching => cases holding
  | held | converting => cases y <;> simp_all [mayStandTogether]

/-- A holding alone on its block overlaps no other holding. -/
theorem not_overlaps_of_alone {s : State} {i j : RecNo} {b c : Block} (alone : s.otherHeldOver i b = false) (other : j ≠ i)
    (hc : holdingBlock (s.record j).state = some c) : b.overlaps c ≠ true := fun meets =>
  Bool.false_ne_true (alone.symm.trans ((otherHeldOver_iff s i b).2 ⟨j, other, c, hc, meets⟩))

/-- A claim that conflicts with no holding stands together with every holding it overlaps (R36, R45). -/
theorem mayStandTogether_of_open {x : RecState} {c b : Block} {m : Mode} (o : LinkNo) (token : Word) (hold : Option Hold)
    (holding : holdingBlock x = some c) (meets : b.overlaps c = true) (open_ : x.holdsAgainst b m = false) :
    mayStandTogether (.held o b m token hold) x := by
  cases x with
  | free | waiting | watching => cases holding
  | held p d n =>
    obtain rfl : d = c := Option.some.inj holding
    cases m <;> cases n <;> simp_all [RecState.holdsAgainst, RecState.holding, conflicts, mayStandTogether]
  | converting p d =>
    obtain rfl : d = c := Option.some.inj holding
    simp_all [RecState.holdsAgainst, RecState.holding, conflicts]

/-- A claim that conflicts with nothing conflicts with no holding. -/
theorem holdsAgainst_of_claimConflicts {s : State} {b : Block} {m : Mode} (open_ : s.claimConflicts b m = false) (j : RecNo) :
    (s.record j).state.holdsAgainst b m = false := by
  rw [Bool.eq_false_iff]
  intro against
  have conflict : (s.record j).state.blocks b m = true := by
    cases h : (s.record j).state <;> simp_all [RecState.holdsAgainst, RecState.holding, RecState.blocks, RecState.claim]
  exact Bool.false_ne_true (open_.symm.trans ((claimConflicts_iff s b m).2 ⟨j, (blocks_iff s j b m).1 conflict⟩))

theorem holdsAgainst_of_heldAgainst {s : State} {b : Block} {m : Mode} (open_ : s.heldAgainst b m = false) (j : RecNo) :
    (s.record j).state.holdsAgainst b m = false := by
  rw [Bool.eq_false_iff]
  intro against
  exact Bool.false_ne_true (open_.symm.trans ((heldAgainst_iff s b m).2 ⟨j, against⟩))

/-- A holding that may be shared or excluded has the block it is rewritten with. -/
theorem holdingBlock_of_holding {x : RecState} {o : LinkNo} {b : Block} {token : Word} {hold : Option Hold}
    (holding : (∃ m, x = .held o b m token hold) ∨ ∃ g w, x = .converting o b token g w hold) :
    holdingBlock x = some b := by
  rcases holding with ⟨m, rfl⟩ | ⟨g, w, rfl⟩ <;> rfl

/-- The work of the blocks keeps holdings compatible. -/
theorem Work.holdingsCompatible {s t : State} (h : Work s t) (before : HoldingsCompatible s) : HoldingsCompatible t := by
  cases h with
  | link | tags | depart | arrive | floor => exact before
  | free i => exact holdingsCompatible_rewrite_none i .free (fun j => state_freeRecord i j s) rfl before
  | share i o b token hold holding =>
    refine holdingsCompatible_rewrite i _ (fun j => state_putState s i j _) (fun _ hb j ne c hc meets => ?_) before
    cases hb
    have own := holdingBlock_of_holding holding
    exact mayStandTogether_share o b token hold own (before i j ne.symm b c own hc meets)
  | exclude i o b token hold holding _ alone =>
    refine holdingsCompatible_rewrite i _ (fun j => state_putState s i j _) (fun _ hb j ne c hc meets => ?_) before
    cases hb
    exact absurd meets (not_overlaps_of_alone alone ne hc)
  | convert i o b token tag wait hold state _ settled =>
    refine holdingsCompatible_rewrite i _ (fun j => state_putState s i j _) (fun _ hb j ne c hc meets => ?_) before
    cases hb
    have together := before i j ne.symm b c (by rw [state]; rfl) hc meets
    rw [state] at together
    cases other : (s.record j).state with
    | free | waiting | watching => rw [other] at hc; cases hc
    | held p d n u k =>
      rw [other] at together
      exact together.2
    | converting p d u g w k =>
      have meets' : HoldsOver s j b := ⟨c, hc, meets⟩
      have converting := (otherConvertingOver_iff s i b).2 ⟨j, ne, meets', by rw [other]; rfl⟩
      exact absurd (settled.symm.trans converting) Bool.false_ne_true
  | grant i o b m tag w limit _ _ open_ =>
    refine holdingsCompatible_rewrite i _ (fun j => state_putState s i j _) (fun _ hb j ne c hc meets => ?_) before
    cases hb
    exact mayStandTogether_of_open o _ _ hc meets (holdsAgainst_of_heldAgainst open_ j)
  | hold i l q w m hold _ _ _ _ _ _ open_ =>
    refine holdingsCompatible_rewrite i _ (fun j => state_putState s i j _) (fun _ hb j ne c hc meets => ?_) before
    cases hb
    exact mayStandTogether_of_open l _ _ hc meets (holdsAgainst_of_claimConflicts open_ j)
  | wait i => exact holdingsCompatible_rewrite_none i _ (fun j => state_putState s i j _) rfl before
  | watch i => exact holdingsCompatible_rewrite_none i _ (fun j => state_putState s i j _) rfl before

theorem holdingsCompatible_congr (s t : State) (records : t.records = s.records) (h : HoldingsCompatible s) :
    HoldingsCompatible t := by
  unfold HoldingsCompatible State.record
  rw [records]
  exact h

theorem holdingsCompatible_empty {t : State} (empty : ∀ i, (t.record i).state = .free) : HoldingsCompatible t := by
  intro i j _ b _ hb
  rw [empty] at hb
  cases hb

/-- Settles O54: each elementary move keeps the holdings compatible, so every step does. -/
theorem stepKeepsHoldingsCompatible : Obligations.StepKeepsHoldingsCompatible := by
  intro s t before next
  have kept : Kept fun s => True ∧ HoldingsCompatible s :=
    kept_of_pool kept_true (fun s t records _ => holdingsCompatible_congr s t records) holdingsCompatible_empty
      fun work _ => work.holdingsCompatible
  exact (kept.step next ⟨trivial, before⟩).2

end Sys2Proof.Machine
end

section
/-! PROOFS. Invariants of the pool, continued: tokens (R30), and blocks (R13, R16). -/

namespace Sys2Proof.Machine

open Sys2Proof.Safety

/-! ### Tokens (R30) -/

/-- A record is rewritten to one without a token, with the token that it had, or with one that has just been issued. -/
theorem tokensSound_rewrite {s t : State} (i : RecNo) (x : RecState)
    (record : ∀ j, (t.record j).state = if i = j then x else (s.record j).state) (counter : s.tokens ≤ t.tokens)
    (own : ∀ k, x.token = some k → (s.record i).state.token = some k ∨ s.tokens < k ∧ k ≤ t.tokens)
    (before : TokensSound s) : TokensSound t := by
  obtain ⟨range, distinct⟩ := before
  have old {j : RecNo} {k : Word} (h : (t.record j).state.token = some k) :
      (s.record j).state.token = some k ∨ j = i ∧ s.tokens < k ∧ k ≤ t.tokens := by
    rw [record] at h
    by_cases same : i = j
    · rw [if_pos same] at h
      rw [← same]
      exact (own k h).imp_right fun issued => ⟨rfl, issued⟩
    · rw [if_neg same] at h
      exact .inl h
  have below {j : RecNo} {k : Word} (h : (s.record j).state.token = some k) (issued : s.tokens < k) : False :=
    absurd (BitVec.lt_def.1 issued) (range j k h).2.not_gt
  refine ⟨fun j k h => ?_, fun j j' k h h' => ?_⟩
  · rcases old h with h | ⟨-, issued, limit⟩
    · obtain ⟨low, high⟩ := range j k h
      exact ⟨low, high.trans (BitVec.le_def.1 counter)⟩
    · exact ⟨Nat.one_le_iff_ne_zero.2 (Nat.ne_zero_of_lt (BitVec.lt_def.1 issued)), BitVec.le_def.1 limit⟩
  · rcases old h with h | ⟨e, issued, -⟩ <;> rcases old h' with h' | ⟨e', issued', -⟩
    · exact distinct j j' k h h'
    · exact (below h issued').elim
    · exact (below h' issued).elim
    · rw [e, e']

/-- The work of the blocks keeps the tokens sound. -/
theorem Work.tokensSound {s t : State} (h : Work s t) (before : TokensSound s) : TokensSound t := by
  have idle {i : RecNo} {x : RecState} (none : x.token = none) (k : Word) (e : x.token = some k) :
      (s.record i).state.token = some k ∨ s.tokens < k ∧ k ≤ s.tokens := by rw [none] at e; cases e
  have issued {i : RecNo} (unspent : s.tokensSpent = false) (k : Word) (e : some s.nextToken = some k) :
      (s.record i).state.token = some k ∨ s.tokens < k ∧ k ≤ s.nextToken := by
    cases e
    exact .inr ⟨lt_nextToken s unspent, BitVec.le_refl _⟩
  have kept : s.tokens ≤ s.tokens := BitVec.le_refl _
  have next (unspent : s.tokensSpent = false) : s.tokens ≤ s.nextToken := BitVec.le_of_lt (lt_nextToken s unspent)
  cases h with
  | link | tags | depart | arrive => exact before
  | floor v raises =>
    obtain ⟨range, distinct⟩ := before
    exact ⟨fun i k h => ⟨(range i k h).1, (range i k h).2.trans (BitVec.le_def.1 raises)⟩, distinct⟩
  | free i =>
    obtain ⟨-, -, tokens, -, -⟩ := freeRecord_frame i s
    refine tokensSound_rewrite i .free (fun j => state_freeRecord i j s) (by rw [tokens]; exact kept) (fun k e => ?_) before
    cases e
  | share i o b token hold holding =>
    refine tokensSound_rewrite i _ (fun j => state_putState s i j _) kept (fun k e => .inl ?_) before
    cases e
    rcases holding with ⟨m, state⟩ | ⟨g, w, state⟩ <;> rw [state] <;> rfl
  | exclude i o b token hold _ unspent =>
    exact tokensSound_rewrite i _ (fun j => state_putState s i j _) (next unspent) (issued unspent) before
  | convert i o b token tag wait hold state =>
    refine tokensSound_rewrite i _ (fun j => state_putState s i j _) kept (fun k e => .inl ?_) before
    cases e
    rw [state]; rfl
  | grant i o b m tag w limit _ unspent =>
    exact tokensSound_rewrite i _ (fun j => state_putState s i j _) (next unspent) (issued unspent) before
  | hold i l q w m hold _ _ _ _ _ unspent =>
    exact tokensSound_rewrite i _ (fun j => state_putState s i j _) (next unspent) (issued unspent) before
  | wait i => exact tokensSound_rewrite i _ (fun j => state_putState s i j _) kept (idle rfl) before
  | watch i => exact tokensSound_rewrite i _ (fun j => state_putState s i j _) kept (idle rfl) before

theorem tokensSound_congr (s t : State) (records : t.records = s.records) (tokens : t.tokens = s.tokens)
    (h : TokensSound s) : TokensSound t := by
  unfold TokensSound State.record
  rw [records, tokens]
  exact h

theorem tokensSound_empty {t : State} (empty : ∀ i, (t.record i).state = .free) : TokensSound t := by
  refine ⟨fun i k h => ?_, fun i j k h _ => ?_⟩ <;> rw [empty] at h <;> cases h

/-- Settles O55: a record's token is its old one or has just been issued, above all others. -/
theorem stepKeepsTokensSound : Obligations.StepKeepsTokensSound := by
  intro s t before next
  have kept : Kept fun s => True ∧ TokensSound s :=
    kept_of_pool kept_true tokensSound_congr tokensSound_empty fun work _ => work.tokensSound
  exact (kept.step next ⟨trivial, before⟩).2

/-! ### Blocks (R13, R16) -/

/-- A multiple of a power of two below another power of two leaves room for one step more. -/
theorem add_le_of_dvd {a p n : Nat} (aligned : p ∣ a) (divides : p ∣ n) (below : a < n) : a + p ≤ n := by
  obtain ⟨x, rfl⟩ := aligned
  obtain ⟨y, rfl⟩ := divides
  have : x < y := Nat.lt_of_mul_lt_mul_left below
  calc p * x + p = p * (x + 1) := by ring
    _ ≤ p * y := Nat.mul_le_mul_left p this

/-- The translation of an aligned block through a window in range is a well-formed global block (R2, R13). -/
theorem translate_wellFormed {w : Window} {q : Block} (range : WindowInRange w) (fits : w.fits q = true)
    (aligned : q.base % 2 ^ q.exp = 0) : (w.translate q).wellFormed = true := by
  obtain ⟨exp, -, below, localAligned, globalAligned⟩ := range
  unfold Window.fits Window.contains at fits
  simp only [ne_eq, Bool.and_eq_true, decide_eq_true_eq] at fits
  obtain ⟨-, smaller, same⟩ := fits
  have positive : 0 < 2 ^ w.exp := Nat.two_pow_pos _
  have divides : 2 ^ q.exp ∣ 2 ^ w.exp := Nat.pow_dvd_pow 2 smaller
  have globalDvd : 2 ^ w.exp ∣ w.globalBase := Nat.dvd_of_mod_eq_zero globalAligned
  have localDvd : 2 ^ w.exp ∣ w.localBase := Nat.dvd_of_mod_eq_zero localAligned
  have offset : q.base - w.localBase < 2 ^ w.exp := by
    have high : q.base < 2 ^ w.exp * (w.localBase / 2 ^ w.exp) + 2 ^ w.exp := by
      rw [← same]
      exact Nat.lt_mul_div_succ _ positive
    rw [Nat.mul_div_cancel' localDvd] at high
    omega
  have room := add_le_of_dvd globalDvd (Nat.pow_dvd_pow 2 exp) below
  have offsetDvd : 2 ^ q.exp ∣ q.base - w.localBase :=
    Nat.dvd_sub (Nat.dvd_of_mod_eq_zero aligned) (divides.trans localDvd)
  have sum : (w.globalBase + (q.base - w.localBase)) % 2 ^ q.exp = 0 :=
    Nat.mod_eq_zero_of_dvd (Nat.dvd_add (divides.trans globalDvd) offsetDvd)
  have bound : w.globalBase + (q.base - w.localBase) < 2 ^ 24 := by omega
  unfold Window.translate Block.wellFormed
  simp only [Bool.and_eq_true, decide_eq_true_eq]
  exact ⟨⟨smaller.trans exp, bound⟩, sum⟩

/-- The window that the search finds is one of the link's (R11). -/
theorem translate_of_admits {s : State} {l : LinkNo} {q : Block} {w : Window} (profile : ProfileInRange s)
    (admits : Admits s l q w) : (w.translate q).wellFormed = true := by
  obtain ⟨-, windows, -⟩ := profile
  obtain ⟨-, aligned, k, rfl, fits, -⟩ := admits
  exact translate_wellFormed (windows l k) fits aligned

/-- A record is rewritten to one that is FREE or names a well-formed block. -/
theorem blocksWellFormed_rewrite {s t : State} (i : RecNo) (x : RecState)
    (record : ∀ j, (t.record j).state = if i = j then x else (s.record j).state)
    (sound : ∀ b, recordBlock x = some b → b.wellFormed = true) (before : BlocksWellFormed s) : BlocksWellFormed t := by
  intro j b h
  rw [record] at h
  split at h
  · exact sound b h
  · exact before j b h

/-- The work of the blocks keeps every block well-formed while the windows lie in their ranges. -/
theorem Work.blocksWellFormed {s t : State} (h : Work s t) (profile : ProfileInRange s) (before : BlocksWellFormed s) :
    BlocksWellFormed t := by
  have keeps (i : RecNo) (x : RecState) (b : Block) (own : recordBlock (s.record i).state = some b)
      (same : recordBlock x = some b) (c : Block) (e : recordBlock x = some c) : c.wellFormed = true := by
    rw [same] at e
    cases e
    exact before i b own
  have held {i : RecNo} {o : LinkNo} {b : Block} {token : Word} {hold : Option Hold}
      (holding : (∃ m, (s.record i).state = .held o b m token hold) ∨
        ∃ g w, (s.record i).state = .converting o b token g w hold) : recordBlock (s.record i).state = some b := by
    rcases holding with ⟨m, state⟩ | ⟨g, w, state⟩ <;> rw [state] <;> rfl
  have admitted {l : LinkNo} {q : Block} {w : Window} (admits : Admits s l q w) (c : Block)
      (e : some (w.translate q) = some c) : c.wellFormed = true := by
    cases e
    exact translate_of_admits profile admits
  cases h with
  | link | tags | depart | arrive | floor => exact before
  | free i => exact blocksWellFormed_rewrite i .free (fun j => state_freeRecord i j s) nofun before
  | share i o b token hold holding =>
    exact blocksWellFormed_rewrite i _ (fun j => state_putState s i j _) (keeps i _ b (held holding) rfl) before
  | exclude i o b token hold holding =>
    exact blocksWellFormed_rewrite i _ (fun j => state_putState s i j _) (keeps i _ b (held holding) rfl) before
  | convert i o b token tag wait hold state =>
    exact blocksWellFormed_rewrite i _ (fun j => state_putState s i j _) (keeps i _ b (by rw [state]; rfl) rfl) before
  | grant i o b m tag w limit state =>
    exact blocksWellFormed_rewrite i _ (fun j => state_putState s i j _) (keeps i _ b (by rw [state]; rfl) rfl) before
  | hold i l q w m hold _ _ _ admits =>
    exact blocksWellFormed_rewrite i _ (fun j => state_putState s i j _) (admitted admits) before
  | wait i l q w m tag wait hold _ _ _ admits =>
    exact blocksWellFormed_rewrite i _ (fun j => state_putState s i j _) (admitted admits) before
  | watch i l q w tag wait _ _ _ admits =>
    exact blocksWellFormed_rewrite i _ (fun j => state_putState s i j _) (admitted admits) before

theorem blocksWellFormed_congr (s t : State) (records : t.records = s.records) (h : BlocksWellFormed s) :
    BlocksWellFormed t := by
  unfold BlocksWellFormed State.record
  rw [records]
  exact h

theorem blocksWellFormed_empty {t : State} (empty : ∀ i, (t.record i).state = .free) : BlocksWellFormed t := by
  intro i b h
  rw [empty] at h
  cases h

/-- Every step keeps the profile in its ranges and the blocks well-formed. -/
theorem kept_geometrySound : Kept GeometrySound :=
  kept_of_pool kept_profileInRange (fun s t records _ => blocksWellFormed_congr s t records) blocksWellFormed_empty
    fun work profile => work.blocksWellFormed profile

/-- Settles O56: a new record's block is translated through a window in range. -/
theorem stepKeepsGeometrySound : Obligations.StepKeepsGeometrySound :=
  fun _ _ before next => kept_geometrySound.step next before

end Sys2Proof.Machine
end

section
/-! PROOFS. Counts and lists of the pool under the elementary moves (R26 to R28), and what RESTART leaves of each link. -/

namespace Sys2Proof.Machine

open Sys2Proof.Safety

/-! ### Counting records -/

/-- How many records satisfy a test, as the size of a set of record numbers. -/
theorem countRecords_eq_card (s : State) (p : RecState → Bool) :
    s.countRecords p = (Finset.univ.filter fun i : RecNo => p (s.record i).state = true).card := by
  have list : s.records.toList = (List.finRange 128).map s.record := by
    apply List.ext_getElem
    · simp
    · intro n _ _
      simp [State.record, Vector.get_eq_getElem]
  rw [State.countRecords, list, List.countP_map, List.countP_eq_length_filter,
    ← List.toFinset_card_of_nodup ((List.nodup_finRange 128).filter _)]
  congr 1
  ext i
  simp

/-- The number depends on the states of the records alone. -/
theorem countRecords_congr {s t : State} (p q : RecState → Bool) (same : ∀ i, q (t.record i).state = p (s.record i).state) :
    t.countRecords q = s.countRecords p := by
  simp only [countRecords_eq_card, same]

/-- The number is 0 when no record satisfies the test. -/
theorem countRecords_eq_zero {s : State} {p : RecState → Bool} (none : ∀ i, p (s.record i).state = false) :
    s.countRecords p = 0 := by
  simp [countRecords_eq_card, none]

/-- A record rewritten counts as its new state does and no more as its old one did. -/
theorem countRecords_rewrite {s t : State} (p : RecState → Bool) (i : RecNo) (x : RecState)
    (record : ∀ j, (t.record j).state = if i = j then x else (s.record j).state) :
    t.countRecords p + (p (s.record i).state).toNat = s.countRecords p + (p x).toNat := by
  have value (b : Bool) : (if b = true then 1 else 0) = b.toNat := by cases b <;> rfl
  have others : ∑ j ∈ Finset.univ.erase i, (p (t.record j).state).toNat =
      ∑ j ∈ Finset.univ.erase i, (p (s.record j).state).toNat := by
    refine Finset.sum_congr rfl fun j other => ?_
    rw [record, if_neg (Finset.ne_of_mem_erase other).symm]
  simp only [countRecords_eq_card, Finset.card_filter, value]
  rw [← Finset.add_sum_erase Finset.univ _ (Finset.mem_univ i), ← Finset.add_sum_erase Finset.univ _ (Finset.mem_univ i),
    others, record, if_pos rfl]
  omega

/-! ### Records owned (R28) -/

/-- The test that a link owns a record. -/
def ownedBy (l : LinkNo) (x : RecState) : Bool := x.owner = some l

theorem recordsOf_eq (s : State) (l : LinkNo) : recordsOf s l = s.countRecords (ownedBy l) := rfl

/-- A record that keeps its owner leaves every count of records. -/
theorem recordsOf_rewrite {s t : State} (i : RecNo) (x : RecState)
    (record : ∀ j, (t.record j).state = if i = j then x else (s.record j).state)
    (owner : x.owner = (s.record i).state.owner) (l : LinkNo) : recordsOf t l = recordsOf s l := by
  have count := countRecords_rewrite (ownedBy l) i x record
  rw [show ownedBy l x = ownedBy l (s.record i).state by rw [ownedBy, ownedBy, owner]] at count
  exact Nat.add_right_cancel count

/-- The owner of a holding. -/
theorem owner_of_holding {x : RecState} {o : LinkNo} {b : Block} {token : Word} {hold : Option Hold}
    (holding : (∃ m, x = .held o b m token hold) ∨ ∃ g w, x = .converting o b token g w hold) : x.owner = some o := by
  rcases holding with ⟨m, rfl⟩ | ⟨g, w, rfl⟩ <;> rfl

/-- A new record of link `l` raises its count by one and no other. -/
theorem recordsOf_allocate {s t : State} (i : RecNo) (x : RecState) (l : LinkNo)
    (record : ∀ j, (t.record j).state = if i = j then x else (s.record j).state)
    (free : (s.record i).state = .free) (owner : x.owner = some l) (m : LinkNo) :
    recordsOf t m = recordsOf s m + if l = m then 1 else 0 := by
  have count := countRecords_rewrite (ownedBy m) i x record
  have before : ownedBy m (s.record i).state = false := by rw [free]; rfl
  have after : (ownedBy m x).toNat = if l = m then 1 else 0 := by
    rw [ownedBy, owner]
    by_cases same : l = m <;> simp [same]
  rw [before, after] at count
  exact count

/-- The count of records owned that the session table keeps, after a record was freed (R19 step 5). -/
theorem session_freeRecord {i : RecNo} {s : State} {o : LinkNo} (owner : (s.record i).state.owner = some o) (l : LinkNo) :
    (freeRecord i s).session l =
      if o = l then { s.session o with owned := (s.session o).owned - 1 } else s.session l := by
  rw [freeRecord_eq i s o owner]
  exact Vector.get_set_fin ..

/-- A record that is not owned is FREE. -/
theorem free_of_owner_none {x : RecState} (h : x.owner = none) : x = .free := by
  cases x with
  | free => rfl
  | waiting | held | converting | watching => cases h

/-- The counts of records owned match the pool after a free (R19, R28). -/
theorem countsMatch_freeRecord (i : RecNo) {s : State} (before : CountsMatch s) : CountsMatch (freeRecord i s) := by
  cases owner : (s.record i).state.owner with
  | none => rw [freeRecord_free i s (free_of_owner_none owner)]; exact before
  | some o =>
    intro l
    have count := countRecords_rewrite (ownedBy l) i .free fun j => state_freeRecord i j s
    have own : ownedBy l (s.record i).state = decide (o = l) := by rw [ownedBy, owner]; simp
    rw [← recordsOf_eq, ← recordsOf_eq, own, show ownedBy l .free = false from rfl] at count
    rw [session_freeRecord owner]
    by_cases same : o = l
    · subst same
      have := before o
      simp only [decide_true, Bool.toNat_true, Bool.toNat_false] at count
      rw [if_pos rfl]
      show (s.session o).owned - 1 = _
      omega
    · simp only [same, decide_false, Bool.toNat_false, Nat.add_zero] at count
      rw [if_neg same, count, before l]

/-- A session's count is one higher after it has been given a record. -/
theorem owned_allocate (i : RecNo) (l : LinkNo) (x : RecState) (s : State) (m : LinkNo) :
    ((allocate i l x s).session m).owned = (s.session m).owned + if l = m then 1 else 0 := by
  rw [show (allocate i l x s).session m = _ from State.session_putSession ..]
  by_cases same : l = m
  · subst same; rw [if_pos rfl, if_pos rfl]; rfl
  · rw [if_neg same, if_neg same]; rfl

/-- The work of the blocks keeps the counts matched (R28). -/
theorem Work.countsMatch {s t : State} (h : Work s t) (before : CountsMatch s) : CountsMatch t := by
  have restated (i : RecNo) (x : RecState) (owner : x.owner = (s.record i).state.owner) {t : State}
      (record : ∀ j, (t.record j).state = if i = j then x else (s.record j).state)
      (sessions : t.sessions = s.sessions) : CountsMatch t := fun l => by
    rw [recordsOf_rewrite i x record owner, State.session, sessions]
    exact before l
  have allocated (i : RecNo) (l : LinkNo) (x : RecState) (free : (s.record i).state = .free) (owner : x.owner = some l)
      {t : State} (records : t.records = (allocate i l x s).records) (sessions : t.sessions = (allocate i l x s).sessions) :
      CountsMatch t := fun m => by
    rw [State.session, sessions]
    have record (j : RecNo) : (t.record j).state = if i = j then x else (s.record j).state := by
      rw [State.record, records]
      exact state_putState s i j x
    rw [recordsOf_allocate i x l record free owner, ← before m]
    exact owned_allocate i l x s m
  cases h with
  | link | depart | arrive | floor => exact before
  | tags l list =>
    intro m
    rw [State.session_putSession]
    split
    · rename_i same; rw [← same]; exact before l
    · exact before m
  | free i => exact countsMatch_freeRecord i before
  | share i o b token hold holding =>
    exact restated i _ (by rw [owner_of_holding holding]; rfl) (fun j => state_putState s i j _) rfl
  | exclude i o b token hold holding =>
    exact restated i _ (by rw [owner_of_holding holding]; rfl) (fun j => state_putState s i j _) rfl
  | convert i o b token tag wait hold state =>
    exact restated i _ (by rw [state]; rfl) (fun j => state_putState s i j _) rfl
  | grant i o b m tag w limit state =>
    exact restated i _ (by rw [state]; rfl) (fun j => state_putState s i j _) rfl
  | hold i l q w m hold _ _ free => exact allocated i l _ free rfl rfl rfl
  | wait i l q w m tag wait hold _ _ free => exact allocated i l _ free rfl rfl rfl
  | watch i l q w tag wait _ _ free => exact allocated i l _ free rfl rfl rfl

/-! ### Lists (R26, R27) -/

/-- The lists match after a record has been rewritten when each list says of that record what its new state says, and of the
others what it said before. -/
theorem listsMatch_rewrite {s t : State} (i : RecNo) (x : RecState)
    (record : ∀ j, (t.record j).state = if i = j then x else (s.record j).state)
    (waitNodup : t.waitList.Nodup) (watchNodup : t.watchList.Nodup)
    (waits : ∀ j, j ∈ t.waitList ↔ if i = j then x.isWaiting = true else j ∈ s.waitList)
    (watches : ∀ j, j ∈ t.watchList ↔ if i = j then x.isWatching = true else j ∈ s.watchList) (before : ListsMatch s) :
    ListsMatch t := by
  obtain ⟨-, -, waited, watched⟩ := before
  refine ⟨waitNodup, watchNodup, fun j => ?_, fun j => ?_⟩
  · rw [waits, record]
    split
    · rfl
    · exact waited j
  · rw [watches, record]
    split
    · rfl
    · exact watched j

/-- What a list says once an entry has left it. -/
theorem mem_filter_ne_iff (list : List RecNo) (i j : RecNo) :
    j ∈ list.filter (· ≠ i) ↔ if i = j then false = true else j ∈ list := by
  by_cases same : i = j
  · simp [same]
  · simp [same, Ne.symm same]

/-- What a list says once an entry has joined it. -/
theorem mem_append_singleton_iff (list : List RecNo) (i j : RecNo) :
    j ∈ list ++ [i] ↔ if i = j then true = true else j ∈ list := by
  by_cases same : i = j
  · simp [same]
  · simp [same, Ne.symm same]

/-- What a list says of a record that it is right about. -/
theorem mem_iff_of_mem_iff {list : List RecNo} {i : RecNo} {b : Bool} (here : i ∈ list ↔ b = true) (j : RecNo) :
    j ∈ list ↔ if i = j then b = true else j ∈ list := by
  split
  · rename_i same; rw [← same]; exact here
  · rfl

/-- A list stays without repetition when a new entry joins it. -/
theorem nodup_append_singleton {list : List RecNo} {i : RecNo} (nodup : list.Nodup) (fresh : i ∉ list) :
    (list ++ [i]).Nodup := by
  refine List.nodup_append.2 ⟨nodup, List.nodup_singleton i, ?_⟩
  rintro j listed k single rfl
  exact fresh (List.mem_singleton.1 single ▸ listed)

/-- A holding is neither WAITING nor WATCHING. -/
theorem not_listed_of_holding {x : RecState} {o : LinkNo} {b : Block} {token : Word} {hold : Option Hold}
    (holding : (∃ m, x = .held o b m token hold) ∨ ∃ g w, x = .converting o b token g w hold) :
    x.isWaiting = false ∧ x.isWatching = false := by
  rcases holding with ⟨m, rfl⟩ | ⟨g, w, rfl⟩ <;> exact ⟨rfl, rfl⟩

/-- The work of the blocks keeps the lists matched (R26, R27). -/
theorem Work.listsMatch {s t : State} (h : Work s t) (before : ListsMatch s) : ListsMatch t := by
  have ⟨waitNodup, watchNodup, waits, watches⟩ := before
  have unlisted {i : RecNo} {x : RecState} (old : (s.record i).state.isWaiting = false ∧ (s.record i).state.isWatching = false)
      (new : x.isWaiting = false ∧ x.isWatching = false) {t : State}
      (record : ∀ j, (t.record j).state = if i = j then x else (s.record j).state)
      (waitList : t.waitList = s.waitList) (watchList : t.watchList = s.watchList) : ListsMatch t := by
    refine listsMatch_rewrite i x record (waitList ▸ waitNodup) (watchList ▸ watchNodup) (fun j => ?_) (fun j => ?_) before
    · rw [waitList, new.1]; exact mem_iff_of_mem_iff ((waits i).trans (by rw [old.1])) j
    · rw [watchList, new.2]; exact mem_iff_of_mem_iff ((watches i).trans (by rw [old.2])) j
  cases h with
  | link | tags | depart | arrive | floor => exact before
  | free i =>
    cases owner : (s.record i).state.owner with
    | none => rw [freeRecord_free i s (free_of_owner_none owner)]; exact before
    | some o => exact listsMatch_freeRecord i s o owner before
  | share i o b token hold holding =>
    exact unlisted (not_listed_of_holding holding) ⟨rfl, rfl⟩ (fun j => state_putState s i j _) rfl rfl
  | exclude i o b token hold holding =>
    exact unlisted (not_listed_of_holding holding) ⟨rfl, rfl⟩ (fun j => state_putState s i j _) rfl rfl
  | convert i o b token tag wait hold state =>
    exact unlisted (by rw [state]; exact ⟨rfl, rfl⟩) ⟨rfl, rfl⟩ (fun j => state_putState s i j _) rfl rfl
  | hold i l q w m hold _ _ free =>
    exact unlisted (by rw [free]; exact ⟨rfl, rfl⟩) ⟨rfl, rfl⟩ (fun j => state_putState s i j _) rfl rfl
  | grant i o b m tag w limit state =>
    exact listsMatch_rewrite i _ (fun j => state_putState s i j _) (waitNodup.filter _) watchNodup
      (mem_filter_ne_iff _ i) (mem_iff_of_mem_iff ((watches i).trans (by rw [state]; rfl))) before
  | wait i l q w m tag wait hold _ _ free =>
    have fresh : i ∉ s.waitList := fun listed => by rw [waits, free] at listed; cases listed
    exact listsMatch_rewrite i _ (fun j => state_putState s i j _) (nodup_append_singleton waitNodup fresh) watchNodup
      (mem_append_singleton_iff _ i) (mem_iff_of_mem_iff ((watches i).trans (by rw [free]; rfl))) before
  | watch i l q w tag wait _ _ free =>
    have fresh : i ∉ s.watchList := fun listed => by rw [watches, free] at listed; cases listed
    exact listsMatch_rewrite i _ (fun j => state_putState s i j _) waitNodup (nodup_append_singleton watchNodup fresh)
      (mem_iff_of_mem_iff ((waits i).trans (by rw [free]; rfl))) (mem_append_singleton_iff _ i) before

/-- The lists are as long as there are records on them. -/
theorem length_waitList {s : State} (lists : ListsMatch s) : s.waitList.length = s.countRecords RecState.isWaiting := by
  obtain ⟨nodup, -, waits, -⟩ := lists
  rw [countRecords_eq_card, ← List.toFinset_card_of_nodup nodup]
  congr 1
  ext i
  simp [waits]

theorem length_watchList {s : State} (lists : ListsMatch s) : s.watchList.length = s.countRecords RecState.isWatching := by
  obtain ⟨-, nodup, -, watches⟩ := lists
  rw [countRecords_eq_card, ← List.toFinset_card_of_nodup nodup]
  congr 1
  ext i
  simp [watches]

end Sys2Proof.Machine
end

section
/-! PROOFS. The limits of the pool, the lists, the quotas and the intake queues (R26 to R28, R141, R152, R159). -/

namespace Sys2Proof.Machine

open Sys2Proof.Safety

/-! ### Operations on one link after the other -/

/-- A fold over distinct numbers, each writing what it has read at its own number alone, writes every number once. -/
theorem foldl_each {ι β : Type} [DecidableEq ι] (view : State → ι → β) (f : State → ι → State) (g : β → β)
    (write : ∀ t i j, view (f t i) j = if i = j then g (view t i) else view t j) (list : List ι) (distinct : list.Nodup)
    (s : State) (j : ι) : view (list.foldl f s) j = if j ∈ list then g (view s j) else view s j := by
  induction list generalizing s with
  | nil => simp
  | cons i rest ih =>
    obtain ⟨first, distinct⟩ := List.nodup_cons.1 distinct
    rw [List.foldl_cons, ih distinct, write]
    by_cases same : i = j
    · subst same; simp [first]
    · simp [same, Ne.symm same]

/-! ### RESTART, link by link (R118, R157) -/

/-- A session once RESTART has ended it. -/
def endedSession (x : Session) : Session :=
  match x.state with
  | .opened _ _ => { x with state := .closed, tags := [] }
  | .lapsed => { x with state := .closed }
  | .closed => x

/-- The link unit of an OPEN session once RESTART has flushed it and told ENDED; any other is as it was. -/
def endedUnit (p : LinkSettings) (x : Session) (u : LinkUnit) : LinkUnit :=
  if x.isOpen = true then
    let v := if (discarded u).any (·.adopts) = true then adopted p { u with outbound := survivors u, reserved := 1 }
      else { u with outbound := survivors u, reserved := 1 }
    { v with outbound := v.outbound ++ [{ tag := 0, msg := .ended .restart, adopts := false }], reserved := v.reserved - 1 }
  else u

/-- What RESTART reads and writes of one link. -/
def restartView (s : State) (l : LinkNo) : LinkSettings × Session × LinkUnit := (s.settings l, s.session l, s.link l)

/-- What RESTART makes of it. -/
def restarted (v : LinkSettings × Session × LinkUnit) : LinkSettings × Session × LinkUnit :=
  (v.1, endedSession v.2.1, endedUnit v.1 v.2.1 v.2.2)

theorem sessionAtRestart_eq (s : State) (l : LinkNo) :
    sessionAtRestart s l =
      (s.putSession l (endedSession (s.session l))).putLink l (endedUnit (s.settings l) (s.session l) (s.link l)) := by
  unfold sessionAtRestart endedSession endedUnit Session.isOpen
  cases h : (s.session l).state with
  | closed => simp
  | lapsed =>
    simp only [putSessState]
    exact (State.putLink_link_self (s.putSession l _) l).symm
  | opened d e =>
    simp [putSessState, queueReserved, flush_eq, dropTags, State.putSession_putLink]

/-- Each link's session and unit after every session has been ended. -/
theorem restartView_endSessions (s : State) (l : LinkNo) : restartView (endSessions s) l = restarted (restartView s l) := by
  have write (t : State) (i j : LinkNo) : restartView (sessionAtRestart t i) j =
      if i = j then restarted (restartView t i) else restartView t j := by
    rw [sessionAtRestart_eq]
    by_cases same : i = j
    · subst same; simp [restartView, restarted]
    · simp [restartView, same, State.link_putLink_ne, State.session_putSession_ne]
  have each := foldl_each restartView sessionAtRestart restarted write (List.finRange 6) (List.nodup_finRange 6) s l
  rw [if_pos (List.mem_finRange l)] at each
  exact each

theorem session_endSessions (s : State) (l : LinkNo) : (endSessions s).session l = endedSession (s.session l) :=
  congrArg (fun v : LinkSettings × Session × LinkUnit => v.2.1) (restartView_endSessions s l)

theorem link_endSessions (s : State) (l : LinkNo) :
    (endSessions s).link l = endedUnit (s.settings l) (s.session l) (s.link l) :=
  congrArg (fun v : LinkSettings × Session × LinkUnit => v.2.2) (restartView_endSessions s l)

/-- Every session ends CLOSED. -/
theorem endedSession_state (x : Session) : (endedSession x).state = .closed := by
  unfold endedSession
  cases h : x.state <;> simp [h]

/-- The end of a session at RESTART keeps the receiver's queue, the counters and the transmitter (R166). -/
theorem endedUnit_kept (p : LinkSettings) (x : Session) (u : LinkUnit) :
    (endedUnit p x u).intake = u.intake ∧ (endedUnit p x u).counters = u.counters ∧
    (endedUnit p x u).transmitter = u.transmitter ∧ (endedUnit p x u).inCharacter = u.inCharacter := by
  unfold endedUnit
  split
  · dsimp only
    split
    · obtain ⟨-, -, -, -, intake, counters, transmitter, inCharacter⟩ :=
        adopted_fields p { u with outbound := survivors u, reserved := 1 }
      exact ⟨intake, counters, transmitter, inCharacter⟩
    · exact ⟨rfl, rfl, rfl, rfl⟩
  · exact ⟨rfl, rfl, rfl, rfl⟩

/-- Clearing the pool leaves each session's state and tags and clears its count (R77). -/
theorem session_cleared (u : State) (l : LinkNo) :
    (clearGroups (clearPool u)).session l = { u.session l with owned := 0 } :=
  mapVector_get ..

theorem group_cleared (u : State) (g : GroupNo) : (clearGroups (clearPool u)).group g = Group.atReset := by
  simp [clearGroups, State.group, Vector.get_eq_getElem]

theorem link_cleared (u : State) (l : LinkNo) : (clearGroups (clearPool u)).link l = u.link l := rfl

/-! ### In SETUP nothing is held (R158, R159) -/

/-- While service runs the pool may hold anything. -/
theorem setupIsEmpty_of_running {s : State} (running : s.service = .service) (low : s.resetHeld = false) :
    SetupIsEmpty s :=
  ⟨fun held => absurd (low.symm.trans held) Bool.false_ne_true, fun setup => absurd (setup.symm.trans running) nofun⟩

/-- The work of the blocks finds nothing to do in SETUP. -/
theorem Work.setupIsEmpty {s t : State} (h : Work s t) (before : SetupIsEmpty s) : SetupIsEmpty t := by
  obtain ⟨⟨resetHeld, -, service, -⟩, sessions, -⟩ := h.frame
  obtain ⟨held, empty⟩ := before
  refine ⟨fun low => ?_, fun setup => ?_⟩
  · rw [resetHeld] at low
    rw [service, held low]
  rw [service] at setup
  obtain ⟨closed, free, none⟩ := empty setup
  refine ⟨fun l => (sessions l).trans (closed l), ?_⟩
  have used {i : RecNo} {x : RecState} (state : (s.record i).state = x) (use : x ≠ .free) : False :=
    use (state.symm.trans (free i))
  have running (h : s.service = .service) : False := nomatch setup.symm.trans h
  cases h with
  | link | tags | floor => exact ⟨free, none⟩
  | depart g x fewer =>
    refine ⟨free, fun k => ?_⟩
    rw [State.group_putGroup]
    split
    · refine List.eq_nil_iff_forall_not_mem.2 fun a listed => ?_
      exact List.not_mem_nil (none g ▸ fewer a listed)
    · exact none k
  | arrive g l tag wait run => exact (running run).elim
  | free i =>
    obtain ⟨-, -, -, -, groups⟩ := freeRecord_frame i s
    refine ⟨fun j => ?_, fun g => ?_⟩
    · rw [state_freeRecord]
      split
      · rfl
      · exact free j
    · rw [State.group, groups]; exact none g
  | share i o b token hold holding =>
    exact (holding.elim (fun ⟨_, state⟩ => used state nofun) fun ⟨_, _, state⟩ => used state nofun).elim
  | exclude i o b token hold holding =>
    exact (holding.elim (fun ⟨_, state⟩ => used state nofun) fun ⟨_, _, state⟩ => used state nofun).elim
  | convert i o b token tag wait hold state => exact (used state nofun).elim
  | grant i o b m tag w limit state => exact (used state nofun).elim
  | hold i l q w m hold run => exact (running run).elim
  | wait i l q w m tag wait hold run => exact (running run).elim
  | watch i l q w tag wait run => exact (running run).elim

/-- A session's state is written while the part keeps the rest. -/
theorem setupIsEmpty_putSessState {s : State} (l : LinkNo) (x : SessState) (fits : s.service = .setup → x = .closed)
    (before : SetupIsEmpty s) : SetupIsEmpty (putSessState l x s) := by
  obtain ⟨held, empty⟩ := before
  refine ⟨held, fun setup => ?_⟩
  obtain ⟨closed, free, none⟩ := empty setup
  refine ⟨fun m => ?_, free, none⟩
  rw [session_putSessState]
  split
  · exact fits setup
  · exact closed m

/-- An OPEN session is the mark of SERVICE. -/
theorem not_setup_of_isOpen {s : State} {l : LinkNo} (before : SetupIsEmpty s) (is_open : (s.session l).isOpen = true)
    (setup : s.service = .setup) : False := by
  obtain ⟨-, empty⟩ := before
  have := (empty setup).1 l
  simp [Session.isOpen, this] at is_open

/-- Power-on and RESET_N leave every session CLOSED and every list empty, and the pool FREE. -/
theorem setupIsEmpty_cleared {t : State} (held : t.resetHeld = true → t.service = .setup)
    (sessions : t.sessions = State.reset.sessions) (groups : t.groups = State.reset.groups)
    (free : ∀ i, (t.record i).state = .free) : SetupIsEmpty t := by
  refine ⟨held, fun _ => ⟨fun l => ?_, free, fun g => ?_⟩⟩
  · simp [State.session, sessions, State.reset, Session.atReset, Vector.get_eq_getElem]
  · simp [State.group, groups, State.reset, Group.atReset, Vector.get_eq_getElem]

/-- Latching the straps starts service or leaves everything else. -/
theorem setupIsEmpty_latchStraps {s : State} (straps : Straps) (low : s.resetHeld = false) (before : SetupIsEmpty s) :
    SetupIsEmpty (latchStraps straps s) := by
  unfold latchStraps
  dsimp only
  split
  · exact setupIsEmpty_of_running rfl low
  · exact before

/-- RESTART leaves the part in SETUP with nothing held (R166). -/
theorem setupIsEmpty_restarted {u : State} (service : u.service = .setup) (closed : ∀ l, (u.session l).state = .closed) :
    SetupIsEmpty (clearGroups (clearPool u)) := by
  refine ⟨fun _ => service, fun _ => ⟨fun l => ?_, fun i => state_cleared u i, fun g => ?_⟩⟩
  · rw [session_cleared]; exact closed l
  · rw [group_cleared]; rfl

/-- Every step keeps SETUP empty. -/
theorem kept_setupIsEmpty : Kept SetupIsEmpty where
  move := by
    intro s t m h
    cases m with
    | work w => exact w.setupIsEmpty h
    | take l f taken => obtain ⟨_, _, -, -, -, -, rfl⟩ := taken; exact h
    | opens l running => exact setupIsEmpty_putSessState l _ (fun setup => nomatch setup.symm.trans running) h
    | renew l d e is_open =>
      exact setupIsEmpty_putSessState l _
        (fun setup => (not_setup_of_isOpen h (Session.isOpen_of_opened is_open) setup).elim) h
    | close l => exact setupIsEmpty_putSessState l _ (fun _ => rfl) h
    | lapse l is_open => exact setupIsEmpty_putSessState l _ (fun setup => (not_setup_of_isOpen h is_open setup).elim) h
    | write => exact h
    | start high => exact setupIsEmpty_of_running rfl high
    | restart =>
      obtain ⟨-, -, service, -⟩ := endSessions_control { s with service := .setup }
      refine setupIsEmpty_restarted service fun l => ?_
      rw [session_endSessions]
      exact endedSession_state _
  instant _ h := h
  queue _ h := h
  power straps _ :=
    setupIsEmpty_latchStraps straps rfl (setupIsEmpty_cleared (fun _ => rfl) rfl rfl fun i =>
      congrArg Record.state (record_reset i))
  falling _ := setupIsEmpty_cleared (fun _ => rfl) rfl rfl (state_resetValues _)
  rising straps held h := setupIsEmpty_latchStraps straps rfl ⟨nofun, fun setup => h.2 setup⟩

end Sys2Proof.Machine
end

section
/-! PROOFS. The limits of the pool, the lists, the quotas and the intake queues, continued: what every step keeps of them. -/

namespace Sys2Proof.Machine

open Sys2Proof.Safety

/-! ### What a move of the blocks keeps -/

/-- A rewritten record is no new WAITING or WATCHING record, and no new record of any link. -/
theorem limitsKept_rewrite {s t : State} (i : RecNo) (x : RecState)
    (record : ∀ j, (t.record j).state = if i = j then x else (s.record j).state)
    (owner : x.owner = none ∨ x.owner = (s.record i).state.owner) (waiting : x.isWaiting = false)
    (watching : x.isWatching = false) (profile : t.profile = s.profile) (before : LimitsKept s) : LimitsKept t := by
  obtain ⟨quota, waits, watches⟩ := before
  have fewer (p : RecState → Bool) (no : p x = true → p (s.record i).state = true) :
      t.countRecords p ≤ s.countRecords p := by
    have count := countRecords_rewrite p i x record
    have : (p x).toNat ≤ (p (s.record i).state).toNat := by
      cases new : p x
      · exact Nat.zero_le _
      · rw [no new]
    omega
  refine ⟨fun l => ?_, (fewer _ fun h => ?_).trans waits, (fewer _ fun h => ?_).trans watches⟩
  · rw [State.settings, profile]
    refine (fewer (ownedBy l) fun h => ?_).trans (quota l)
    rcases owner with none | same
    · rw [ownedBy, none] at h; cases h
    · rw [ownedBy, same] at h; exact h
  · rw [waiting] at h; cases h
  · rw [watching] at h; cases h

/-- A record allocated below the quota, with room on its list, keeps the limits (R29). -/
theorem limitsKept_allocate {s t : State} (i : RecNo) (x : RecState) (l : LinkNo)
    (record : ∀ j, (t.record j).state = if i = j then x else (s.record j).state)
    (free : (s.record i).state = .free) (owner : x.owner = some l) (quota : BelowQuota s l)
    (waitRoom : x.isWaiting = true → s.waitListFull = false) (watchRoom : x.isWatching = true → s.watchListFull = false)
    (profile : t.profile = s.profile) (lists : ListsMatch s) (counts : CountsMatch s) (before : LimitsKept s) :
    LimitsKept t := by
  obtain ⟨quotas, waits, watches⟩ := before
  have count (p : RecState → Bool) (idle : p .free = false) : t.countRecords p = s.countRecords p + (p x).toNat := by
    have count := countRecords_rewrite p i x record
    rw [free, idle] at count
    exact count
  refine ⟨fun m => ?_, ?_, ?_⟩
  · rw [State.settings, profile, recordsOf_allocate i x l record free owner]
    have limit : recordsOf s m ≤ (s.settings m).quota := quotas m
    split
    · rename_i same
      have : recordsOf s l ≠ (s.settings l).quota := by rw [← counts l]; exact quota
      rw [same] at this
      exact Nat.lt_of_le_of_ne limit this
    · exact limit
  · rw [count _ rfl]
    cases waiting : x.isWaiting with
    | false => exact waits
    | true =>
      have room := waitRoom waiting
      rw [State.waitListFull, length_waitList lists] at room
      exact Nat.succ_le_of_lt (Nat.lt_of_not_le (of_decide_eq_false room))
  · rw [count _ rfl]
    cases watching : x.isWatching with
    | false => exact watches
    | true =>
      have room := watchRoom watching
      rw [State.watchListFull, length_watchList lists] at room
      exact Nat.succ_le_of_lt (Nat.lt_of_not_le (of_decide_eq_false room))

/-- The limits speak of the records and of the profile (R28). -/
theorem limitsKept_congr {s t : State} (records : t.records = s.records) (profile : t.profile = s.profile)
    (before : LimitsKept s) : LimitsKept t := by
  unfold LimitsKept recordsOf State.countRecords State.settings
  rw [records, profile]
  exact before

/-- An empty pool is within any limit. -/
theorem limitsKept_empty {t : State} (empty : ∀ i, (t.record i).state = .free) : LimitsKept t := by
  have none {p : RecState → Bool} (idle : p .free = false) : t.countRecords p = 0 :=
    countRecords_eq_zero fun i => by rw [empty]; exact idle
  refine ⟨fun l => ?_, ?_, ?_⟩
  · rw [recordsOf_eq, none rfl]; exact Nat.zero_le _
  · rw [none rfl]; exact Nat.zero_le _
  · rw [none rfl]; exact Nat.zero_le _

/-- The work of the blocks keeps the limits (R28, R29). -/
theorem Work.limitsKept {s t : State} (h : Work s t) (lists : ListsMatch s) (counts : CountsMatch s)
    (before : LimitsKept s) : LimitsKept t := by
  cases h with
  | link | tags | depart | arrive | floor => exact limitsKept_congr rfl rfl before
  | free i =>
    exact limitsKept_rewrite i .free (fun j => state_freeRecord i j s) (.inl rfl) rfl rfl
      (profile_of_sameControl (freeRecord_frame i s).1) before
  | share i o b token hold holding =>
    exact limitsKept_rewrite i _ (fun j => state_putState s i j _) (.inr (by rw [owner_of_holding holding]; rfl)) rfl rfl
      rfl before
  | exclude i o b token hold holding =>
    exact limitsKept_rewrite i _ (fun j => state_putState s i j _) (.inr (by rw [owner_of_holding holding]; rfl)) rfl rfl
      rfl before
  | convert i o b token tag wait hold state =>
    exact limitsKept_rewrite i _ (fun j => state_putState s i j _) (.inr (by rw [state]; rfl)) rfl rfl rfl before
  | grant i o b m tag w limit state =>
    exact limitsKept_rewrite i _ (fun j => state_putState s i j _) (.inr (by rw [state]; rfl)) rfl rfl rfl before
  | hold i l q w m hold _ _ free _ quota =>
    exact limitsKept_allocate i _ l (fun j => state_putState s i j _) free rfl quota nofun nofun rfl lists counts before
  | wait i l q w m tag wait hold _ _ free _ quota room =>
    exact limitsKept_allocate i _ l (fun j => state_putState s i j _) free rfl quota (fun _ => room) nofun rfl lists counts
      before
  | watch i l q w tag wait _ _ free _ quota room =>
    exact limitsKept_allocate i _ l (fun j => state_putState s i j _) free rfl quota nofun (fun _ => room) rfl lists counts
      before

/-- The work of the blocks keeps the queues within their limits (R141, R152). -/
theorem Work.queuesWithinLimits {s t : State} (h : Work s t) (before : QueuesWithinLimits s) : QueuesWithinLimits t := by
  obtain ⟨intake, taken⟩ := before
  cases h with
  | link l u room =>
    refine ⟨fun m => ?_, taken⟩
    rw [State.link_putLink]
    split
    · exact room.trans (max_le (le_refl 3) (intake l))
    · exact intake m
  | free i =>
    obtain ⟨⟨-, -, -, -, -, -, -, rotation, -⟩, -, -, links, -⟩ := freeRecord_frame i s
    refine ⟨fun m => ?_, by rw [rotation]; exact taken⟩
    rw [State.link, links]
    exact intake m
  | _ => exact ⟨intake, taken⟩

/-! ### Changes of a session's state, and the dispatcher -/

/-- A session's count does not hang on its state. -/
theorem countsMatch_putSessState {s : State} (l : LinkNo) (x : SessState) (before : CountsMatch s) :
    CountsMatch (putSessState l x s) := by
  intro m
  rw [session_putSessState]
  split
  · rename_i same; rw [← same]; exact before l
  · exact before m

/-- The rotation counts the frames of a turn up to the weight of its link, which is at most 4 (R152, R161). -/
theorem queuesWithinLimits_takesFrame {l : LinkNo} {f : Frame} {s t : State} (taken : TakesFrame l f s t)
    (profile : ProfileInRange s) (before : QueuesWithinLimits s) : QueuesWithinLimits t := by
  obtain ⟨rest, turn, -, head, next, -, rfl⟩ := taken
  obtain ⟨intake, count⟩ := before
  have turnCount : turn.taken ≤ 4 := by
    unfold State.nextTurn at next
    dsimp only at next
    split at next
    · rename_i again
      rw [Bool.and_eq_true, decide_eq_true_eq] at again
      obtain ⟨-, -, -, -, -, -, -, -, weight⟩ := profile.1 s.rotation.current
      cases next
      show s.rotation.taken + 1 ≤ 4
      omega
    · obtain ⟨m, -, rfl⟩ := Option.map_eq_some_iff.1 next
      show 1 ≤ 4
      decide
  refine ⟨fun m => ?_, turnCount⟩
  show ((s.links.set l _).get m).intake.length ≤ 3
  rw [Vector.get_set_fin]
  split
  · rename_i same
    have := intake l
    rw [head, List.length_cons] at this
    exact (Nat.le_succ _).trans this
  · exact intake m

/-! ### Every step -/

/-- Power-on, RESET_N and RESTART leave the pool FREE with nothing on a list and nothing counted. -/
theorem pool_cleared {t : State} (free : ∀ i, (t.record i).state = .free) (waitList : t.waitList = [])
    (watchList : t.watchList = []) (owned : ∀ l, (t.session l).owned = 0) :
    ListsMatch t ∧ CountsMatch t ∧ LimitsKept t := by
  refine ⟨⟨?_, ?_, fun i => ?_, fun i => ?_⟩, fun l => ?_, limitsKept_empty free⟩
  · rw [waitList]; exact List.nodup_nil
  · rw [watchList]; exact List.nodup_nil
  · rw [waitList, free]; simp [RecState.isWaiting]
  · rw [watchList, free]; simp [RecState.isWatching]
  · rw [owned, recordsOf_eq, countRecords_eq_zero]
    intro i
    rw [free]; rfl

/-- What a reset leaves of lists, counts and queues. -/
theorem lists_reset {t : State} (free : ∀ i, (t.record i).state = .free) (waitList : t.waitList = [])
    (watchList : t.watchList = []) (sessions : t.sessions = State.reset.sessions) (links : t.links = State.reset.links)
    (rotation : t.rotation = Rotation.atReset) : ListsMatch t ∧ CountsMatch t ∧ LimitsKept t ∧ QueuesWithinLimits t := by
  obtain ⟨lists, counts, limits⟩ := pool_cleared free waitList watchList fun l => by
    simp [State.session, sessions, State.reset, Session.atReset, Vector.get_eq_getElem]
  refine ⟨lists, counts, limits, fun l => ?_, ?_⟩
  · simp [State.link, links, State.reset, LinkUnit.atReset, Vector.get_eq_getElem]
  · rw [rotation]; exact Nat.zero_le _

/-- The limits, apart from what SETUP and the profile ask. -/
def ListsAndLimits (s : State) : Prop := ListsMatch s ∧ CountsMatch s ∧ LimitsKept s ∧ QueuesWithinLimits s

/-- They do not speak of straps, service state, epoch, time or waiting commands. -/
theorem listsAndLimits_latchStraps (straps : Straps) {s : State} (h : ListsAndLimits s) :
    ListsAndLimits (latchStraps straps s) := by
  unfold latchStraps
  dsimp only
  split <;> exact h

/-- RESTART leaves the pool cleared and the intake queues as they were. -/
theorem listsAndLimits_restarted {s u : State} (intake : ∀ l, (u.link l).intake = (s.link l).intake)
    (rotation : u.rotation = s.rotation) (before : QueuesWithinLimits s) :
    ListsAndLimits (clearGroups (clearPool u)) := by
  obtain ⟨queues, taken⟩ := before
  obtain ⟨lists, counts, limits⟩ := pool_cleared (t := clearGroups (clearPool u)) (state_cleared u) rfl rfl fun l => by
    rw [session_cleared]
  refine ⟨lists, counts, limits, fun l => ?_, ?_⟩
  · rw [link_cleared, intake]; exact queues l
  · show u.rotation.taken ≤ 4
    rw [rotation]; exact taken

/-- Every move keeps the limits. -/
theorem Move.listsAndLimits {s t : State} (m : Move s t) (setup : SetupIsEmpty s) (profile : ProfileInRange s)
    (before : ListsAndLimits s) : ListsAndLimits t := by
  obtain ⟨lists, counts, limits, queues⟩ := before
  cases m with
  | work w => exact ⟨w.listsMatch lists, w.countsMatch counts, w.limitsKept lists counts limits, w.queuesWithinLimits queues⟩
  | take l f taken =>
    have within := queuesWithinLimits_takesFrame taken profile queues
    obtain ⟨_, _, -, -, -, -, rfl⟩ := taken
    exact ⟨lists, counts, limits, within⟩
  | opens l | renew l | close l | lapse l => exact ⟨lists, countsMatch_putSessState l _ counts, limits, queues⟩
  | write p service =>
    obtain ⟨-, free, -⟩ := setup.2 service
    exact ⟨lists, counts, limitsKept_empty free, queues⟩
  | start => exact ⟨lists, counts, limits, queues⟩
  | restart =>
    obtain ⟨-, -, -, -, -, -, -, rotation, -⟩ := endSessions_control { s with service := .setup }
    refine listsAndLimits_restarted (fun l => ?_) rotation queues
    rw [link_endSessions]
    obtain ⟨intake, -⟩ := endedUnit_kept (s.settings l) (s.session l) (s.link l)
    exact intake

/-- Every step keeps the limits. -/
theorem kept_limitsSound : Kept fun s => (SetupIsEmpty s ∧ ProfileInRange s) ∧ ListsAndLimits s where
  move m h := ⟨⟨kept_setupIsEmpty.move m h.1.1, kept_profileInRange.move m h.1.2⟩, m.listsAndLimits h.1.1 h.1.2 h.2⟩
  instant _ h := h
  queue _ h := h
  power straps h := by
    refine ⟨⟨kept_setupIsEmpty.power straps h.1.1, kept_profileInRange.power straps h.1.2⟩, ?_⟩
    exact listsAndLimits_latchStraps straps
      (lists_reset (fun i => congrArg Record.state (record_reset i)) rfl rfl rfl rfl rfl)
  falling h :=
    ⟨⟨kept_setupIsEmpty.falling h.1.1, kept_profileInRange.falling h.1.2⟩,
      lists_reset (state_resetValues _) rfl rfl rfl rfl rfl⟩
  rising straps held h :=
    ⟨⟨kept_setupIsEmpty.rising straps held h.1.1, kept_profileInRange.rising straps held h.1.2⟩,
      listsAndLimits_latchStraps straps h.2⟩

/-- Settles O57: each move keeps lists, counts, limits and queues, in SETUP because there nothing is held. -/
theorem stepKeepsLimitsSound : Obligations.StepKeepsLimitsSound := by
  rintro s t ⟨setup, profile, limits⟩ next
  obtain ⟨⟨setup, profile⟩, limits⟩ := kept_limitsSound.step next ⟨⟨setup, profile⟩, limits⟩
  exact ⟨setup, profile, limits⟩

end Sys2Proof.Machine
end

section
/-! PROOFS. What a grant scan decides (R42 to R49, R82): the notices that close tags, and the scan's progress grant by grant
and firing by firing. -/

namespace Sys2Proof.Machine

open Sys2Proof.Safety

/-! ### Notices that close a tag (R121) -/

/-- From `t` to `t'` the entry `e` is queued for link `o` into its tag's reservation and the tag is closed; other links and all
session states are as they were. -/
def Closes (o : LinkNo) (e : OutEntry) (t t' : State) : Prop :=
  ∀ m, t'.link m = (if o = m then { t.link m with
      outbound := (t.link m).outbound ++ [e], reserved := (t.link m).reserved - 1 } else t.link m) ∧
    (t'.session m).state = (t.session m).state ∧
    (t'.session m).tags = if o = m then (t.session m).tags.filter (·.tag ≠ e.tag) else (t.session m).tags

/-- Closing a tag does so. -/
theorem closes_closeTag (o : LinkNo) (tag : Byte) (msg : Message) (s : State) :
    Closes o { tag := tag, msg := msg, adopts := false } s (closeTag o tag msg s) := by
  intro m
  rw [closeTag_eq]
  by_cases same : o = m <;> simp [State.link, State.session, Vector.get_set_fin, same]

/-- What a state shows of links, tags and session states. -/
theorem Closes.congr {o : LinkNo} {e : OutEntry} {t u t' u' : State} (h : Closes o e t t')
    (link : u.link = t.link) (session : ∀ m, (u.session m).state = (t.session m).state ∧ (u.session m).tags = (t.session m).tags)
    (link' : u'.link = t'.link)
    (session' : ∀ m, (u'.session m).state = (t'.session m).state ∧ (u'.session m).tags = (t'.session m).tags) :
    Closes o e u u' := by
  intro m
  obtain ⟨here, state, tags⟩ := h m
  obtain ⟨s, g⟩ := session m
  obtain ⟨s', g'⟩ := session' m
  rw [link, link', s, s', g, g']
  exact ⟨here, state, tags⟩

theorem queuedFor_refl (s : State) (m : LinkNo) : QueuedFor s s m [] := by
  refine ⟨by simp, rfl, ?_⟩
  simp

/-- One more notice for its link, none for the others. -/
theorem Closes.queuedFor {o : LinkNo} {e : OutEntry} {s t t' : State} (h : Closes o e t t') (m : LinkNo)
    {notices : List OutEntry} (before : QueuedFor s t m notices) :
    QueuedFor s t' m (notices ++ if o = m then [e] else []) := by
  obtain ⟨here, state, tags⟩ := h m
  obtain ⟨link, same, list⟩ := before
  by_cases own : o = m
  · rw [if_pos own] at here tags ⊢
    refine ⟨?_, state.trans same, ?_⟩
    · rw [here, link]
      simp [Nat.sub_sub]
    · rw [tags, list, List.filter_filter]
      refine List.filter_congr fun x _ => ?_
      rw [Bool.eq_iff_iff]
      simp only [Bool.and_eq_true, decide_eq_true_eq, List.mem_append, List.mem_singleton, or_imp, forall_and,
        forall_eq]
      exact ⟨fun ⟨h, k⟩ => ⟨k, h.symm⟩, fun ⟨h, k⟩ => ⟨k.symm, h⟩⟩
  · rw [if_neg own] at here tags ⊢
    rw [List.append_nil]
    exact ⟨here.trans link, state.trans same, tags.trans list⟩

/-! ### The progress of a scan -/

/-- What the grants of `granted`, each in its turn, and then the firings of `fired` have made of `s`: the parts of
`ScanOutcome` that do not speak of which records were chosen. -/
structure Progress (s t : State) (granted fired : List RecNo) : Prop where
  tokens : t.tokens = s.tokens + BitVec.ofNat 32 granted.length
  grants : ∀ k i, granted[k]? = some i → t.record i =
    { reuse := (s.record i).reuse, state := grantedAs s (s.tokens + BitVec.ofNat 32 (k + 1)) (s.record i).state }
  firings : ∀ i ∈ fired, t.record i = freed (s.record i)
  others : ∀ i, i ∉ granted → i ∉ fired → t.record i = s.record i
  waitList : t.waitList = s.waitList.filter (· ∉ granted)
  watchList : t.watchList = s.watchList.filter (· ∉ fired)
  notices : ∀ l, QueuedFor s t l (scanNotices s granted fired l)
  owned : ∀ l, (t.session l).owned =
    (s.session l).owned - (fired.filter (fun i => (s.record i).state.owner = some l)).length
  control : SameControl s t ∧ t.groups = s.groups

/-- A scan that has decided nothing. -/
theorem Progress.start (s : State) : Progress s s [] [] where
  tokens := by simp
  grants := by simp
  firings := by simp
  others := by simp
  waitList := by simp
  watchList := by simp
  notices := queuedFor_refl s
  owned := by simp
  control := ⟨sameControl_refl s, rfl⟩

/-- A grant's notice is the last of the scan while nothing has fired. -/
theorem scanNotices_grant {s : State} {granted : List RecNo} {i : RecNo} {o : LinkNo} {e : OutEntry}
    (notice : grantNotice s i (s.tokens + BitVec.ofNat 32 (granted.length + 1)) = some (o, e)) (m : LinkNo) :
    scanNotices s (granted ++ [i]) [] m = scanNotices s granted [] m ++ if o = m then [e] else [] := by
  unfold scanNotices
  rw [List.zipIdx_append]
  by_cases own : o = m <;> simp [notice, own]

/-- A firing's notice is the last of the scan. -/
theorem scanNotices_fire {s : State} {granted fired : List RecNo} {i : RecNo} {o : LinkNo} {e : OutEntry}
    (notice : fireNotice s i = some (o, e)) (m : LinkNo) :
    scanNotices s granted (fired ++ [i]) m = scanNotices s granted fired m ++ if o = m then [e] else [] := by
  unfold scanNotices
  rw [List.filterMap_append, ← List.append_assoc, List.filter_append, List.map_append]
  congr 1
  by_cases own : o = m <;> simp [notice, own]

/-- A list without its entries of one more kind. -/
theorem filter_notMem_append (list gone : List RecNo) (i : RecNo) :
    list.filter (· ∉ gone ++ [i]) = (list.filter (· ∉ gone)).filter (· ≠ i) := by
  rw [List.filter_filter]
  refine List.filter_congr fun j _ => ?_
  simp [and_comm]

/-- One more grant. -/
theorem Progress.grant {s t t' : State} {granted : List RecNo} {i : RecNo} {o : LinkNo} {e : OutEntry}
    (p : Progress s t granted []) (fresh : i ∉ granted)
    (notice : grantNotice s i (s.tokens + BitVec.ofNat 32 (granted.length + 1)) = some (o, e))
    (tokens : t'.tokens = t.tokens + 1)
    (record : ∀ j, t'.record j = if i = j then
      { reuse := (s.record i).reuse, state := grantedAs s (t.tokens + 1) (s.record i).state } else t.record j)
    (waitList : t'.waitList = t.waitList.filter (· ≠ i)) (watchList : t'.watchList = t.watchList)
    (closes : Closes o e t t') (owned : ∀ l, (t'.session l).owned = (t.session l).owned)
    (control : SameControl t t' ∧ t'.groups = t.groups) : Progress s t' (granted ++ [i]) [] where
  tokens := by
    rw [tokens, p.tokens, List.length_append, BitVec.ofNat_add, BitVec.add_assoc]
    rfl
  grants k j h := by
    rcases lt_trichotomy k granted.length with inside | rfl | beyond
    · rw [List.getElem?_append_left inside] at h
      have other : i ≠ j := fun same => fresh (same ▸ List.mem_of_getElem? h)
      rw [record, if_neg other]
      exact p.grants k j h
    · rw [List.getElem?_append_right (le_refl _), Nat.sub_self] at h
      cases h
      rw [record, if_pos rfl, p.tokens, BitVec.ofNat_add, BitVec.add_assoc]
      rfl
    · have none : (granted ++ [i])[k]? = none := by
        rw [List.getElem?_eq_none_iff, List.length_append, List.length_singleton]; omega
      rw [none] at h
      cases h
  firings := by simp
  others j absent _ := by
    rw [List.mem_append, List.mem_singleton, not_or] at absent
    rw [record, if_neg (Ne.symm absent.2)]
    exact p.others j absent.1 (by simp)
  waitList := by rw [waitList, p.waitList, filter_notMem_append]
  watchList := by rw [watchList, p.watchList]
  notices l := by
    rw [scanNotices_grant notice]
    exact closes.queuedFor l (p.notices l)
  owned l := by rw [owned, p.owned]
  control := ⟨sameControl_trans p.control.1 control.1, control.2.trans p.control.2⟩

/-- One more firing. -/
theorem Progress.fire {s t t' : State} {granted fired : List RecNo} {i : RecNo} {o : LinkNo} {e : OutEntry}
    (p : Progress s t granted fired) (ungranted : i ∉ granted) (notice : fireNotice s i = some (o, e))
    (owner : (s.record i).state.owner = some o)
    (tokens : t'.tokens = t.tokens)
    (record : ∀ j, t'.record j = if i = j then freed (s.record i) else t.record j)
    (waitList : t'.waitList = t.waitList) (watchList : t'.watchList = t.watchList.filter (· ≠ i))
    (closes : Closes o e t t')
    (owned : ∀ l, (t'.session l).owned = if o = l then (t.session l).owned - 1 else (t.session l).owned)
    (control : SameControl t t' ∧ t'.groups = t.groups) : Progress s t' granted (fired ++ [i]) where
  tokens := tokens.trans p.tokens
  grants k j h := by
    have other : i ≠ j := fun same => ungranted (same ▸ List.mem_of_getElem? h)
    rw [record, if_neg other]
    exact p.grants k j h
  firings j listed := by
    rw [record]
    by_cases same : i = j
    · rw [if_pos same, same]
    · rw [if_neg same]
      refine p.firings j ?_
      simpa [Ne.symm same] using listed
  others j absent absent' := by
    rw [List.mem_append, List.mem_singleton, not_or] at absent'
    rw [record, if_neg (Ne.symm absent'.2)]
    exact p.others j absent absent'.1
  waitList := by rw [waitList, p.waitList]
  watchList := by rw [watchList, p.watchList, filter_notMem_append]
  notices l := by
    rw [scanNotices_fire notice]
    exact closes.queuedFor l (p.notices l)
  owned l := by
    rw [owned, p.owned, List.filter_append, List.length_append]
    by_cases own : o = l
    · simp [own, owner, Nat.sub_sub]
    · simp [own, owner]
  control := ⟨sameControl_trans p.control.1 control.1, control.2.trans p.control.2⟩

end Sys2Proof.Machine
end

section
/-! PROOFS. What a grant scan decides, continued: its three phases, and the choice that each makes (R43 to R48). -/

namespace Sys2Proof.Machine

open Sys2Proof.Safety

/-! ### What a grant leaves of a record's claims -/

/-- A granted record is a holding, and no WAITING record. -/
theorem granted_holding {s : State} {token : Word} {x : RecState} (asks : x.isConverting = true ∨ x.isWaiting = true) :
    (grantedAs s token x).holding = x.claim ∧ (grantedAs s token x).isWaiting = false := by
  cases x with
  | waiting => exact ⟨rfl, rfl⟩
  | converting => exact ⟨rfl, rfl⟩
  | free | held | watching => simp [RecState.isConverting, RecState.isWaiting] at asks

/-- A converter's claim is its holding. -/
theorem holding_of_isConverting {x : RecState} (converting : x.isConverting = true) : x.holding = x.claim := by
  cases x with
  | converting => rfl
  | free | waiting | held | watching => cases converting

/-- A holding is no WAITING record. -/
theorem holding_isSome_not_waiting {x : RecState} {c : Block × Mode} (h : x.holding = some c) : x.isWaiting = false := by
  cases x with
  | held | converting | watching => rfl
  | free | waiting => cases h

/-! ### The records that the scan may choose -/

/-- The converter phase's test of a record (R44). -/
def converterFree (s : State) (i : RecNo) : Bool :=
  match (s.record i).state with
  | .converting _ b .. => !s.otherHeldOver i b
  | .free | .waiting .. | .held .. | .watching .. => false

theorem converterFree_iff (s : State) (i : RecNo) : converterFree s i = true ↔ ConverterFree s i := by
  unfold converterFree ConverterFree
  cases h : (s.record i).state with
  | converting o b t g d k =>
    simp only [Bool.not_eq_true', Bool.eq_false_iff, ne_eq, otherHeldOver_iff, not_exists, not_and]
    constructor
    · intro alone
      exact ⟨o, b, t, g, d, k, rfl, alone⟩
    · rintro ⟨_, _, _, _, _, _, e, alone⟩
      cases e
      exact alone
  | free | waiting | held | watching => simp

/-- The wait-list phase's test of a record, `before` being the records before it in the list (R45). -/
def waiterOpen (s : State) (before : List RecNo) (i : RecNo) : Bool :=
  match (s.record i).state with
  | .waiting _ b m _ _ _ => !s.heldAgainst b m && !s.earlierAgainst before b m
  | .free | .held .. | .converting .. | .watching .. => false

/-- The same with the records before it as the list has them. -/
def waiterFree (s : State) (i : RecNo) : Bool := waiterOpen s (s.waitList.takeWhile (· ≠ i)) i

/-- In a list without repetition the records before one are those before its place. -/
theorem takeWhile_ne_of_nodup {before after : List RecNo} {i : RecNo} (nodup : (before ++ i :: after).Nodup) :
    (before ++ i :: after).takeWhile (· ≠ i) = before := by
  have absent : ∀ j ∈ before, decide (j ≠ i) = true := fun j listed =>
    decide_eq_true ((List.nodup_append.1 nodup).2.2 j listed i (by simp))
  rw [List.takeWhile_append_of_pos absent, List.takeWhile_cons_of_neg (by simp), List.append_nil]

/-- R45's test against the holdings. -/
theorem heldAgainst_iff_holdingConflicts (s : State) (b : Block) (m : Mode) :
    s.heldAgainst b m = true ↔ ∃ j, HoldingConflicts s j b m := by
  rw [heldAgainst_iff]
  refine exists_congr fun j => ?_
  unfold RecState.holdsAgainst HoldingConflicts
  cases (s.record j).state.holding with
  | none => simp
  | some x => obtain ⟨c, n⟩ := x; simp [conflicts]

/-- R45's test against one earlier record. -/
theorem waitingConflicts_iff (s : State) (j : RecNo) (b : Block) (m : Mode) :
    WaitingConflicts s j b m ↔ (s.record j).state.isWaiting = true ∧ (s.record j).state.blocks b m = true := by
  unfold WaitingConflicts RecState.blocks
  cases (s.record j).state <;> simp [RecState.isWaiting, RecState.claim, conflicts]

/-- R45's test against the earlier records. -/
theorem earlierAgainst_iff (s : State) (earlier : List RecNo) (b : Block) (m : Mode) :
    s.earlierAgainst earlier b m = true ↔ ∃ j ∈ earlier, WaitingConflicts s j b m := by
  simp only [State.earlierAgainst, List.any_eq_true, Bool.and_eq_true, waitingConflicts_iff]

theorem waiterFree_iff (s : State) (lists : ListsMatch s) (i : RecNo) :
    (i ∈ s.waitList ∧ waiterFree s i = true) ↔ WaiterFree s i := by
  obtain ⟨nodup, -, waits, -⟩ := lists
  have free_iff {before : List RecNo} {b : Block} {m : Mode} :
      (!s.heldAgainst b m && !s.earlierAgainst before b m) = true ↔
        (∀ j, ¬ HoldingConflicts s j b m) ∧ ∀ j ∈ before, ¬ WaitingConflicts s j b m := by
    rw [Bool.and_eq_true, Bool.not_eq_true', Bool.not_eq_true', Bool.eq_false_iff, Bool.eq_false_iff, ne_eq, ne_eq,
      heldAgainst_iff_holdingConflicts, earlierAgainst_iff, not_exists]
    simp only [not_exists, not_and]
  constructor
  · rintro ⟨listed, free⟩
    obtain ⟨before, after, order⟩ := List.append_of_mem listed
    obtain ⟨o, b, m, g, d, h, state⟩ := RecState.waiting_cases ((waits i).1 listed)
    rw [waiterFree, order, takeWhile_ne_of_nodup (order ▸ nodup), waiterOpen, state] at free
    exact ⟨before, after, o, b, m, g, d, h, order, state, free_iff.1 free⟩
  · rintro ⟨before, after, o, b, m, g, d, h, order, state, free⟩
    refine ⟨by rw [order]; simp, ?_⟩
    rw [waiterFree, order, takeWhile_ne_of_nodup (order ▸ nodup), waiterOpen, state]
    exact free_iff.2 free

/-! ### Tokens left (R31, R48) -/

/-- How many tokens are left. -/
def tokensLeft (s : State) : Nat := 0xFFFFFFFF - s.tokens.toNat

/-- After some grants the tokens are spent exactly when there were no more. -/
theorem Progress.tokensSpent_iff {s t : State} {granted fired : List RecNo} (p : Progress s t granted fired)
    (within : granted.length ≤ tokensLeft s) : t.tokensSpent = true ↔ granted.length = tokensLeft s := by
  have range := s.tokens.isLt
  have maximum : (4294967295 : Word).toNat = 4294967295 := rfl
  unfold tokensLeft at *
  unfold State.tokensSpent Config.maxToken
  rw [decide_eq_true_eq, ← BitVec.toNat_inj, p.tokens]
  simp only [BitVec.toNat_add, BitVec.toNat_ofNat, maximum]
  omega

/-- Cutting a list to a length that it has reached drops whatever is appended. -/
theorem take_append_of_spent {α : Type} (list more : List α) (n : Nat) (spent : n ≤ list.length) :
    (list ++ more).take n = list.take n := by
  rw [List.take_append, Nat.sub_eq_zero_of_le spent, List.take_zero, List.append_nil]

/-- Cutting a list that is shorter leaves it. -/
theorem take_append_of_left {α : Type} (list : List α) (x : α) (n : Nat) (left : list.length < n) :
    (list ++ [x]).take n = list.take n ++ [x] := by
  rw [List.take_of_length_le (by simpa using left), List.take_of_length_le left.le]

/-! ### The converter phase (R44) -/

/-- While converters alone have been granted, the holdings are over a block as before. -/
theorem Progress.otherHeldOver {s t : State} {granted : List RecNo} (p : Progress s t granted [])
    (converters : ∀ j ∈ granted, (s.record j).state.isConverting = true) (i : RecNo) (b : Block) :
    t.otherHeldOver i b = s.otherHeldOver i b := by
  have holding (j : RecNo) : (t.record j).state.holding.map Prod.fst = (s.record j).state.holding.map Prod.fst := by
    by_cases listed : j ∈ granted
    · obtain ⟨k, at_⟩ := List.mem_iff_getElem?.1 listed
      rw [p.grants k j at_, (granted_holding (.inl (converters j listed))).1,
        holding_of_isConverting (converters j listed)]
    · rw [p.others j listed (by simp)]
  rw [Bool.eq_iff_iff]
  simp only [otherHeldOver_iff, HoldsOver, holdingBlock, holding]

/-- One grant of a conversion, as progress. -/
theorem Progress.grantConverter {s t : State} {granted : List RecNo} {i : RecNo} {o : LinkNo} {b : Block} {token : Word}
    {tag : Byte} {w : Option Instant} {hold : Option Hold} (p : Progress s t granted []) (fresh : i ∉ granted)
    (lists : ListsMatch s) (state : (s.record i).state = .converting o b token tag w hold) :
    Progress s (grantConverter i o b tag hold t) (granted ++ [i]) [] := by
  have old : t.record i = s.record i := p.others i fresh (by simp)
  have unlisted : i ∉ t.waitList := by
    obtain ⟨-, -, waits, -⟩ := lists
    rw [p.waitList, List.mem_filter, waits, state]
    exact fun listed => nomatch listed.1
  have next : t.tokens + 1 = s.tokens + BitVec.ofNat 32 (granted.length + 1) := by
    rw [p.tokens, BitVec.ofNat_add, BitVec.add_assoc]; rfl
  have handle : t.handle i = s.handle i := by rw [State.handle, State.handle, old]
  refine p.grant (e := { tag := tag, msg := .granted (s.handle i) (t.tokens + 1) .exclusive, adopts := false }) (o := o) fresh
    ?_ rfl (fun j => ?_) ?_ rfl ?_ (fun l => ?_) ⟨⟨rfl, rfl, rfl, rfl, rfl, rfl, rfl, rfl, rfl⟩, rfl⟩
  · rw [grantNotice, state, ← next]
  · rw [state, ← old]
    exact Vector.get_set_fin ..
  · refine (List.filter_eq_self.2 fun j listed => decide_eq_true ?_).symm
    rintro rfl
    exact unlisted listed
  · rw [← handle]
    exact (closes_closeTag o tag _ _).congr rfl (fun _ => ⟨rfl, rfl⟩) rfl fun _ => ⟨rfl, rfl⟩
  · rw [grantConverter_eq]
    by_cases own : o = l <;> simp [State.session, Vector.get_set_fin, own]

/-- The converter phase over some records: the free converters among them, as many as there are tokens left. -/
theorem converterPhase_progress {s : State} (lists : ListsMatch s) (rest done : List RecNo) (nodup : (done ++ rest).Nodup)
    {t : State} (p : Progress s t ((done.filter (converterFree s)).take (tokensLeft s)) []) :
    Progress s (rest.foldl examineConverter t) (((done ++ rest).filter (converterFree s)).take (tokensLeft s)) [] := by
  induction rest generalizing done t with
  | nil => simpa using p
  | cons i rest ih =>
    have again : done ++ i :: rest = (done ++ [i]) ++ rest := by simp
    rw [again] at nodup ⊢
    refine ih (done ++ [i]) nodup ?_
    have unseen : i ∉ done := fun listed =>
      (List.nodup_append.1 (List.nodup_append.1 nodup).1).2.2 i listed i (by simp) rfl
    have fresh : i ∉ (done.filter (converterFree s)).take (tokensLeft s) := fun listed =>
      unseen (List.mem_of_mem_filter (List.mem_of_mem_take listed))
    have old : t.record i = s.record i := p.others i fresh (by simp)
    have converters : ∀ j ∈ (done.filter (converterFree s)).take (tokensLeft s), (s.record j).state.isConverting = true := by
      intro j listed
      obtain ⟨o, b, k, g, d, h, state, -⟩ := (converterFree_iff s j).1 (List.of_mem_filter (List.mem_of_mem_take listed))
      rw [state]; rfl
    have skip (blocked : converterFree s i = false) : (done ++ [i]).filter (converterFree s) = done.filter (converterFree s) := by
      rw [List.filter_append, List.filter_cons_of_neg (by rw [blocked]; exact Bool.false_ne_true), List.filter_nil,
        List.append_nil]
    have take_ (free : converterFree s i = true) :
        (done ++ [i]).filter (converterFree s) = done.filter (converterFree s) ++ [i] := by
      rw [List.filter_append, List.filter_cons_of_pos free, List.filter_nil]
    have spent_iff := p.tokensSpent_iff (List.length_take_le ..)
    unfold examineConverter
    rw [old]
    cases state : (s.record i).state with
    | converting o b token tag w hold =>
      have free : converterFree s i = !s.otherHeldOver i b := by rw [converterFree, state]
      dsimp only
      rw [p.otherHeldOver converters]
      cases held : s.otherHeldOver i b with
      | true => rw [Bool.or_true, if_pos rfl, skip (by rw [free, held]; rfl)]; exact p
      | false =>
        rw [take_ (by rw [free, held]; rfl), Bool.or_false]
        cases spent : t.tokensSpent with
        | true =>
          have full := spent_iff.1 spent
          rw [if_pos rfl, take_append_of_spent _ _ _ (full ▸ List.length_take_le' ..)]
          exact p
        | false =>
          have left : (done.filter (converterFree s)).length < tokensLeft s := by
            refine Nat.lt_of_not_le fun full => ?_
            rw [spent_iff.2 (by rw [List.length_take]; exact min_eq_left full)] at spent
            cases spent
          rw [if_neg Bool.false_ne_true, take_append_of_left _ _ _ left]
          exact p.grantConverter fresh lists state
    | free | waiting | held | watching =>
      rw [skip (by rw [converterFree, state])]
      exact p

end Sys2Proof.Machine
end

section
/-! PROOFS. What a grant scan decides, continued: the wait-list phase and the watch phase, and the scan as a whole. -/

namespace Sys2Proof.Machine

open Sys2Proof.Safety

/-! ### The wait-list phase (R45, R46, R48) -/

/-- One grant of a WAITING record, as progress. -/
theorem Progress.grantWaiter {s t : State} {granted : List RecNo} {i : RecNo} {o : LinkNo} {b : Block} {m : Mode}
    {tag : Byte} {w : Option Instant} {limit : Option Nat} (p : Progress s t granted []) (fresh : i ∉ granted)
    (state : (s.record i).state = .waiting o b m tag w limit) :
    Progress s (grantWaiter i o b m tag limit t) (granted ++ [i]) [] := by
  have old : t.record i = s.record i := p.others i fresh (by simp)
  have next : t.tokens + 1 = s.tokens + BitVec.ofNat 32 (granted.length + 1) := by
    rw [p.tokens, BitVec.ofNat_add, BitVec.add_assoc]; rfl
  have handle : t.handle i = s.handle i := by rw [State.handle, State.handle, old]
  have armed : t.armHold limit = holdArmed s limit := by
    obtain ⟨⟨-, -, -, -, uptime, clkin, -⟩, -⟩ := p.control
    unfold State.armHold State.due holdArmed
    rw [uptime, clkin]
  refine p.grant (e := { tag := tag, msg := .granted (s.handle i) (t.tokens + 1) m, adopts := false }) (o := o) fresh
    ?_ rfl (fun j => ?_) rfl rfl ?_ (fun l => ?_) ⟨⟨rfl, rfl, rfl, rfl, rfl, rfl, rfl, rfl, rfl⟩, rfl⟩
  · rw [grantNotice, state, ← next]
  · rw [state, ← old, show grantedAs s (t.tokens + 1) (.waiting o b m tag w limit) = .held o b m (t.tokens + 1) (t.armHold limit)
      by rw [armed]; rfl]
    exact Vector.get_set_fin ..
  · rw [← handle]
    exact (closes_closeTag o tag _ _).congr rfl (fun _ => ⟨rfl, rfl⟩) rfl fun _ => ⟨rfl, rfl⟩
  · rw [grantWaiter_eq]
    by_cases own : o = l <;> simp [State.session, Vector.get_set_fin, own]

/-- The records granted are converters and free waiters among the records passed over. -/
structure Granted (s : State) (before granted : List RecNo) : Prop where
  asked : ∀ j ∈ granted, (s.record j).state.isConverting = true ∨ (s.record j).state.isWaiting = true ∧ j ∈ before

/-- A holding conflicts once some have been granted: it did before, or it was a WAITING record that conflicted. -/
theorem Progress.heldAgainst_iff {s t : State} {before granted : List RecNo} (p : Progress s t granted [])
    (g : Granted s before granted) (b : Block) (m : Mode) :
    t.heldAgainst b m = true ↔ (∃ j, HoldingConflicts s j b m) ∨ ∃ j ∈ granted, WaitingConflicts s j b m := by
  have holding {j : RecNo} (listed : j ∈ granted) : (t.record j).state.holding = (s.record j).state.claim := by
    obtain ⟨k, at_⟩ := List.mem_iff_getElem?.1 listed
    rw [p.grants k j at_]
    exact (granted_holding ((g.asked j listed).imp_right And.left)).1
  have waiting {j : RecNo} (waits : (s.record j).state.isWaiting = true) :
      WaitingConflicts s j b m ↔ ∃ c n, (s.record j).state.claim = some (c, n) ∧ b.overlaps c = true ∧
        (m = .exclusive ∨ n = .exclusive) := by
    rw [waitingConflicts_iff, RecState.blocks]
    cases claim : (s.record j).state.claim with
    | none => simp
    | some x => obtain ⟨c, n⟩ := x; simp [waits, conflicts]
  rw [heldAgainst_iff_holdingConflicts]
  constructor
  · rintro ⟨j, c, n, held, meets, mode⟩
    by_cases listed : j ∈ granted
    · rw [holding listed] at held
      rcases g.asked j listed with converting | ⟨waits, -⟩
      · exact .inl ⟨j, c, n, (holding_of_isConverting converting).trans held, meets, mode⟩
      · exact .inr ⟨j, listed, (waiting waits).2 ⟨c, n, held, meets, mode⟩⟩
    · rw [p.others j listed (by simp)] at held
      exact .inl ⟨j, c, n, held, meets, mode⟩
  · rintro (⟨j, c, n, held, meets, mode⟩ | ⟨j, listed, conflict⟩)
    · by_cases listed : j ∈ granted
      · rcases g.asked j listed with converting | ⟨waits, -⟩
        · exact ⟨j, c, n, (holding listed).trans ((holding_of_isConverting converting).symm.trans held), meets, mode⟩
        · rw [holding_isSome_not_waiting held] at waits; cases waits
      · exact ⟨j, c, n, by rw [p.others j listed (by simp)]; exact held, meets, mode⟩
    · obtain ⟨c, n, claim, meets, mode⟩ := (waiting ((waitingConflicts_iff ..).1 conflict).1).1 conflict
      exact ⟨j, c, n, (holding listed).trans claim, meets, mode⟩

/-- R45's test as the phase makes it, against the present holdings and the earlier records still WAITING, is the test against
the holdings and the earlier records at the start of the scan. -/
theorem Progress.blocked_iff {s t : State} {before granted : List RecNo} (p : Progress s t granted [])
    (g : Granted s before granted) (b : Block) (m : Mode) :
    (t.heldAgainst b m || t.earlierAgainst (before.filter (· ∉ granted)) b m) =
      (s.heldAgainst b m || s.earlierAgainst before b m) := by
  have untouched {j : RecNo} (absent : j ∉ granted) : WaitingConflicts t j b m ↔ WaitingConflicts s j b m := by
    rw [waitingConflicts_iff, waitingConflicts_iff, p.others j absent (by simp)]
  rw [Bool.eq_iff_iff, Bool.or_eq_true, Bool.or_eq_true, p.heldAgainst_iff g, earlierAgainst_iff, earlierAgainst_iff,
    heldAgainst_iff_holdingConflicts]
  constructor
  · rintro ((held | ⟨j, listed, conflict⟩) | ⟨j, listed, conflict⟩)
    · exact .inl held
    · rcases g.asked j listed with converting | ⟨-, early⟩
      · have := ((waitingConflicts_iff ..).1 conflict).1
        cases state : (s.record j).state <;> simp [state, RecState.isConverting, RecState.isWaiting] at converting this
      · exact .inr ⟨j, early, conflict⟩
    · obtain ⟨early, absent⟩ := List.mem_filter.1 listed
      exact .inr ⟨j, early, (untouched (of_decide_eq_true absent)).1 conflict⟩
  · rintro (held | ⟨j, early, conflict⟩)
    · exact .inl (.inl held)
    · by_cases listed : j ∈ granted
      · exact .inl (.inr ⟨j, listed, conflict⟩)
      · exact .inr ⟨j, List.mem_filter.2 ⟨early, decide_eq_true listed⟩, (untouched listed).2 conflict⟩

/-- The grants of the wait-list phase so far: the converters, then the free waiters among the records passed over, as many as
there are tokens left. -/
def grantsUpTo (s : State) (converters before : List RecNo) : List RecNo :=
  (converters ++ before.filter (waiterFree s)).take (tokensLeft s)

/-- One step of the list. -/
theorem grantsUpTo_append (s : State) (converters before : List RecNo) (i : RecNo) :
    grantsUpTo s converters (before ++ [i]) =
      if waiterFree s i = true ∧ (grantsUpTo s converters before).length ≠ tokensLeft s
      then grantsUpTo s converters before ++ [i] else grantsUpTo s converters before := by
  unfold grantsUpTo
  rw [List.filter_append, ← List.append_assoc, List.length_take]
  by_cases free : waiterFree s i = true
  · rw [List.filter_cons_of_pos free, List.filter_nil]
    by_cases full : tokensLeft s ≤ (converters ++ before.filter (waiterFree s)).length
    · rw [take_append_of_spent _ _ _ full, min_eq_left full, if_neg (by simp)]
    · have left := Nat.lt_of_not_le full
      rw [take_append_of_left _ _ _ left, min_eq_right left.le, if_pos ⟨free, left.ne⟩]
  · rw [List.filter_cons_of_neg free, List.filter_nil, List.append_nil, if_neg fun h => free h.1]

/-- The wait-list phase over the rest of the list. -/
theorem waitPhase_progress {s : State} (lists : ListsMatch s) {converters : List RecNo}
    (converting : ∀ j ∈ converters, (s.record j).state.isConverting = true) (rest before : List RecNo)
    (order : s.waitList = before ++ rest) {t : State} (p : Progress s t (grantsUpTo s converters before) [])
    (earlier : List RecNo) (still : earlier = before.filter (· ∉ grantsUpTo s converters before)) :
    Progress s (waitPhase rest earlier t) (grantsUpTo s converters s.waitList) [] := by
  induction rest generalizing before t earlier with
  | nil =>
    rw [List.append_nil] at order
    rw [order]
    exact p
  | cons i rest ih =>
    have ⟨nodup, _, waits, _⟩ := lists
    have again : s.waitList = (before ++ [i]) ++ rest := by simp [order]
    obtain ⟨o, b, m, tag, w, limit, state⟩ := RecState.waiting_cases ((waits i).1 (by rw [order]; simp))
    have waiting : (s.record i).state.isWaiting = true := by rw [state]; rfl
    have g : Granted s before (grantsUpTo s converters before) := by
      refine ⟨fun j listed => ?_⟩
      rcases List.mem_append.1 (List.mem_of_mem_take listed) with first | second
      · exact .inl (converting j first)
      · have early := List.mem_of_mem_filter second
        exact .inr ⟨(waits j).1 (by rw [order]; simp [early]), early⟩
    have unseen : i ∉ before := fun listed =>
      (List.nodup_append.1 (order ▸ nodup)).2.2 i listed i (by simp) rfl
    have fresh : i ∉ grantsUpTo s converters before := fun listed => by
      rcases g.asked i listed with converter | ⟨-, early⟩
      · rw [state] at converter; cases converter
      · exact unseen early
    have old : t.record i = s.record i := p.others i fresh (by simp)
    have open_iff : waiterFree s i = !(s.heldAgainst b m || s.earlierAgainst before b m) := by
      rw [waiterFree, order, takeWhile_ne_of_nodup (order ▸ nodup), waiterOpen, state, Bool.not_or]
    have spent_iff := p.tokensSpent_iff (List.length_take_le ..)
    have step := grantsUpTo_append s converters before i
    rw [waitPhase, old, state]
    dsimp only
    rw [Bool.or_assoc, still, p.blocked_iff g b m]
    by_cases grants : waiterFree s i = true ∧ (grantsUpTo s converters before).length ≠ tokensLeft s
    · rw [if_pos grants] at step
      obtain ⟨free, left⟩ := grants
      have unspent : t.tokensSpent = false := Bool.eq_false_iff.2 fun spent => left (spent_iff.1 spent)
      have unblocked : (s.heldAgainst b m || s.earlierAgainst before b m) = false := by simpa [open_iff] using free
      rw [unspent, unblocked, Bool.or_false, if_neg Bool.false_ne_true]
      refine ih (before ++ [i]) again (step ▸ p.grantWaiter fresh state) _ ?_
      have kept : (before.filter (· ∉ grantsUpTo s converters before)).filter (· ≠ i) =
          before.filter (· ∉ grantsUpTo s converters before) := by
        refine List.filter_eq_self.2 fun j listed => decide_eq_true ?_
        rintro rfl
        exact unseen (List.mem_of_mem_filter listed)
      rw [step, filter_notMem_append, List.filter_append, List.filter_append, kept, List.filter_filter, List.filter_singleton]
      simp
    · rw [if_neg grants] at step
      have blocked : (t.tokensSpent || (s.heldAgainst b m || s.earlierAgainst before b m)) = true := by
        rw [not_and_or, not_not] at grants
        rcases grants with blocked | spent
        · rw [open_iff, Bool.not_eq_true, Bool.not_eq_false'] at blocked
          rw [blocked, Bool.or_true]
        · rw [spent_iff.2 spent, Bool.true_or]
      rw [if_pos blocked]
      refine ih (before ++ [i]) again (step ▸ p) _ ?_
      rw [step, List.filter_append, List.filter_singleton, decide_eq_true fresh, cond_true]

/-! ### The watch phase (R47, R82) -/

/-- The watch phase's test of a record, the holdings being those of `u`. -/
def watchFree (s u : State) (i : RecNo) : Bool :=
  match (s.record i).state with
  | .watching _ b _ _ => !u.heldOver b
  | .free | .waiting .. | .held .. | .converting .. => false

/-- Firings free watches, which are no holdings. -/
theorem Progress.heldOver {s t u : State} {granted fired : List RecNo} (p : Progress s t granted fired)
    (q : Progress s u granted []) (watches : ∀ j ∈ fired, (s.record j).state.isWatching = true)
    (b : Block) : t.heldOver b = u.heldOver b := by
  have holding (j : RecNo) : (t.record j).state.holding = (u.record j).state.holding := by
    by_cases listed : j ∈ granted
    · obtain ⟨k, at_⟩ := List.mem_iff_getElem?.1 listed
      rw [p.grants k j at_, q.grants k j at_]
    · rw [q.others j listed (by simp)]
      by_cases gone : j ∈ fired
      · rw [p.firings j gone]
        have watching := watches j gone
        cases state : (s.record j).state with
        | watching => rfl
        | free | waiting | held | converting => rw [state] at watching; cases watching
      · rw [p.others j listed gone]
  rw [Bool.eq_iff_iff]
  simp only [heldOver_iff, HoldsOver, holdingBlock, holding]

/-- One firing, as progress. -/
theorem Progress.fireWatch {s t : State} {granted fired : List RecNo} {i : RecNo} {o : LinkNo} {b : Block} {tag : Byte}
    {w : Option Instant} (p : Progress s t granted fired) (unfired : i ∉ fired) (ungranted : i ∉ granted)
    (lists : ListsMatch s) (state : (s.record i).state = .watching o b tag w) :
    Progress s (fireWatch i o tag t) granted (fired ++ [i]) := by
  have old : t.record i = s.record i := p.others i ungranted unfired
  have unlisted : i ∉ t.waitList := by
    obtain ⟨-, -, waits, -⟩ := lists
    rw [p.waitList, List.mem_filter, waits, state]
    exact fun listed => nomatch listed.1
  have handle : t.handle i = s.handle i := by rw [State.handle, State.handle, old]
  have fire := fireWatch_eq i o b tag w t (by rw [old]; exact state)
  refine p.fire (e := { tag := tag, msg := .fired (s.handle i), adopts := false }) ungranted (by rw [fireNotice, state])
    (by rw [state]; rfl) (by rw [fire]) (fun j => ?_) ?_ (by rw [fire]) ?_ (fun l => ?_) ?_
  · rw [fire, ← old]
    exact Vector.get_set_fin ..
  · rw [fire]
    refine List.filter_eq_self.2 fun j listed => decide_eq_true ?_
    rintro rfl
    exact unlisted listed
  · rw [fire, ← handle]
    refine (closes_closeTag o tag (.fired (t.handle i)) t).congr rfl (fun _ => ⟨rfl, rfl⟩) rfl fun m => ?_
    by_cases own : o = m <;> simp [closeTag_eq, State.session, Vector.get_set_fin, own]
  · rw [fire]
    by_cases own : o = l <;> simp [State.session, Vector.get_set_fin, own]
  · rw [fire]
    exact ⟨⟨rfl, rfl, rfl, rfl, rfl, rfl, rfl, rfl, rfl⟩, rfl⟩

/-- The watch phase over the rest of the list, `u` being the state in which it began. -/
theorem watchPhase_progress {s u : State} (lists : ListsMatch s) {granted : List RecNo} (q : Progress s u granted [])
    (asked : ∀ j ∈ granted, (s.record j).state.isWatching = false) (rest before : List RecNo)
    (order : s.watchList = before ++ rest) {t : State} (p : Progress s t granted (before.filter (watchFree s u))) :
    Progress s (rest.foldl examineWatch t) granted (s.watchList.filter (watchFree s u)) := by
  induction rest generalizing before t with
  | nil =>
    rw [List.append_nil] at order
    rw [order]
    exact p
  | cons i rest ih =>
    have ⟨_, nodup, _, watches⟩ := lists
    refine ih (before ++ [i]) (by simp [order]) ?_
    have watching : (s.record i).state.isWatching = true := (watches i).1 (by rw [order]; simp)
    have unseen : i ∉ before := fun listed =>
      (List.nodup_append.1 (order ▸ nodup)).2.2 i listed i (by simp) rfl
    have unfired : i ∉ before.filter (watchFree s u) := fun listed => unseen (List.mem_of_mem_filter listed)
    have ungranted : i ∉ granted := fun listed => by rw [asked i listed] at watching; cases watching
    have old : t.record i = s.record i := p.others i ungranted unfired
    have held := p.heldOver q fun j listed => (watches j).1 (by rw [order]; simp [List.mem_of_mem_filter listed])
    cases state : (s.record i).state with
    | watching o b tag w =>
      have free : watchFree s u i = !u.heldOver b := by rw [watchFree, state]
      rw [examineWatch, old, state]
      dsimp only
      rw [held]
      cases still : u.heldOver b with
      | true =>
        rw [if_pos rfl, List.filter_append, List.filter_cons_of_neg (by rw [free, still]; exact Bool.false_ne_true),
          List.filter_nil, List.append_nil]
        exact p
      | false =>
        rw [if_neg Bool.false_ne_true, List.filter_append, List.filter_cons_of_pos (by rw [free, still]; rfl),
          List.filter_nil]
        exact p.fireWatch unfired ungranted lists state
    | free | waiting | held | converting => rw [state] at watching; cases watching

/-! ### The scan -/

/-- The free converters, in increasing record number (R44). -/
def freeConverters (s : State) : List RecNo := (List.finRange 128).filter (converterFree s)

/-- What the scan grants. -/
def scanGrants (s : State) : List RecNo := grantsUpTo s (freeConverters s) s.waitList

/-- The state after the phases that grant. -/
def afterGrants (s : State) : State := waitPhase (converterPhase s).waitList [] (converterPhase s)

/-- What the scan fires. -/
def scanFires (s : State) : List RecNo := s.watchList.filter (watchFree s (afterGrants s))

theorem isConverting_of_mem_freeConverters {s : State} {j : RecNo} (listed : j ∈ freeConverters s) :
    (s.record j).state.isConverting = true := by
  obtain ⟨o, b, k, g, d, h, state, -⟩ := (converterFree_iff s j).1 (List.of_mem_filter listed)
  rw [state]; rfl

/-- What the scan grants was CONVERTING or WAITING. -/
theorem asked_of_mem_scanGrants {s : State} (lists : ListsMatch s) {j : RecNo} (listed : j ∈ scanGrants s) :
    (s.record j).state.isConverting = true ∨ (s.record j).state.isWaiting = true := by
  obtain ⟨-, -, waits, -⟩ := lists
  rcases List.mem_append.1 (List.mem_of_mem_take listed) with first | second
  · exact .inl (isConverting_of_mem_freeConverters first)
  · exact .inr ((waits j).1 (List.mem_of_mem_filter second))

theorem afterGrants_progress {s : State} (lists : ListsMatch s) : Progress s (afterGrants s) (scanGrants s) [] := by
  have converters : Progress s (converterPhase s) ((freeConverters s).take (tokensLeft s)) [] :=
    converterPhase_progress lists (List.finRange 128) [] (List.nodup_finRange 128) (by simpa using Progress.start s)
  have ⟨_, _, waits, _⟩ := lists
  have order : (converterPhase s).waitList = s.waitList := by
    rw [converters.waitList]
    refine List.filter_eq_self.2 fun j listed => decide_eq_true fun granted => ?_
    have converting := isConverting_of_mem_freeConverters (List.mem_of_mem_take granted)
    have waiting := (waits j).1 listed
    cases state : (s.record j).state <;> simp [state, RecState.isConverting, RecState.isWaiting] at converting waiting
  have none : grantsUpTo s (freeConverters s) [] = (freeConverters s).take (tokensLeft s) := by simp [grantsUpTo]
  unfold afterGrants
  rw [order]
  exact waitPhase_progress lists (fun _ => isConverting_of_mem_freeConverters) s.waitList [] rfl (none ▸ converters) [] rfl

theorem grantScan_progress {s : State} (lists : ListsMatch s) :
    Progress s (grantScan s) (scanGrants s) (scanFires s) := by
  have grants := afterGrants_progress lists
  have order : (afterGrants s).watchList = s.watchList := by simp [grants.watchList]
  have asked : ∀ j ∈ scanGrants s, (s.record j).state.isWatching = false := by
    intro j listed
    rcases asked_of_mem_scanGrants lists listed with converting | waiting
    · cases state : (s.record j).state <;> simp [state, RecState.isConverting, RecState.isWatching] at converting ⊢
    · cases state : (s.record j).state <;> simp [state, RecState.isWaiting, RecState.isWatching] at waiting ⊢
  show Progress s (watchPhase (afterGrants s)) _ _
  rw [watchPhase, order]
  exact watchPhase_progress lists grants asked s.watchList [] rfl (by simpa using grants)

/-- Settles O33: each phase decides by tests that the grants and firings before it in the scan do not change. -/
theorem grantScanDecides : Obligations.GrantScanDecides := by
  intro s lists
  have p := grantScan_progress lists
  have grants := afterGrants_progress lists
  have ⟨_, _, _, watches⟩ := lists
  refine ⟨scanGrants s, scanFires s, ?_, ⟨List.filter_sublist, fun i => ?_⟩, p.tokens, p.grants, p.firings, p.others,
    p.waitList, p.watchList, p.notices, p.owned, p.control⟩
  · refine ⟨freeConverters s, s.waitList.filter (waiterFree s), (List.pairwise_lt_finRange 128).filter _, fun i => ?_,
      List.filter_sublist, fun i => ?_, rfl⟩
    · rw [freeConverters, List.mem_filter, converterFree_iff]
      exact and_iff_right (List.mem_finRange i)
    · rw [List.mem_filter, waiterFree_iff s lists]
  · have watched {j : RecNo} (listed : j ∈ scanFires s) : (s.record j).state.isWatching = true :=
      (watches j).1 (List.mem_of_mem_filter listed)
    have held := p.heldOver grants fun j => watched
    rw [scanFires, List.mem_filter, watches, watchFree]
    cases state : (s.record i).state with
    | watching o b g d =>
      have open_ : (!(afterGrants s).heldOver b) = true ↔ ∀ j, ¬ HoldsOver (grantScan s) j b := by
        rw [← held, Bool.not_eq_true', Bool.eq_false_iff, ne_eq, heldOver_iff, not_exists]
      constructor
      · rintro ⟨-, free⟩
        exact ⟨o, b, g, d, rfl, open_.1 free⟩
      · rintro ⟨_, _, _, _, e, free⟩
        cases e
        exact ⟨rfl, open_.2 free⟩
    | free | waiting | held | converting => simp [RecState.isWatching]

end Sys2Proof.Machine
end

section
/-! PROOFS. What each owner does with a request that it does not refuse: one case for each outcome that the spec gives it, the
state before its reply and the reply. -/

namespace Sys2Proof.Machine

open Sys2Proof.Safety

/-- An outcome of a request other than a refusal: the message of its reply, whether that reply adopts (R147), and the state
before it is queued. -/
inductive Accepted (l : LinkNo) (tag : Byte) (body : List Byte) (s : State) :
    ReqKind → Message → Bool → State → Prop where
  | opens (closed : (s.session l).state = .closed) : Accepted l tag body s .openSession
      (.doneOpen s.epoch s.tokens (s.settings l).lease (s.settings l).quota) false (openUp l s)
  | closesLapsed (lapsed : (s.session l).state = .lapsed) :
      Accepted l tag body s .closeSession .doneEmpty false (putSessState l .closed s)
  | closesOpen (is_open : (s.session l).isOpen = true) :
      Accepted l tag body s .closeSession .doneEmpty false (closeSequence l s)
  | renews : Accepted l tag body s .renew (.doneRenew (s.settings l).lease) false s
  | linkStatus : Accepted l tag body s .status (linkStatus l s) false (clearCounters l s)
  | partStatus : Accepted l tag body s .status (partStatus s) false s
  | holds (q : AcquireReq) (m : Mode) (w : Window) (i : RecNo) (fields : q = AcquireReq.ofBody body)
      (admits : Admits s l q.block w) (free : s.lowestFree = some i) (quota : BelowQuota s l)
      (unspent : s.tokensSpent = false) (open_ : s.claimConflicts (w.translate q.block) m = false) :
      Accepted l tag body s .acquire (.doneHolding (s.handle i) s.nextToken m) false
        (reserveHold l (holdLimitOf q.hold) (issueToken
          (allocate i l (.held l (w.translate q.block) m s.nextToken (s.armHold (holdLimitOf q.hold))) s)))
  | waits (q : AcquireReq) (m : Mode) (w : Window) (i : RecNo) (fields : q = AcquireReq.ofBody body)
      (admits : Admits s l q.block w) (free : s.lowestFree = some i) (quota : BelowQuota s l)
      (room : s.waitListFull = false) (blocked : s.claimConflicts (w.translate q.block) m = true) :
      Accepted l tag body s .acquire (.waitingRecord (s.handle i) (s.waitList ++ [i]).length) false
        (reserveHold l (holdLimitOf q.hold) (openTag l tag (.lockWait i)
          { allocate i l (.waiting l (w.translate q.block) m tag (s.waitDue q.wait) (holdLimitOf q.hold)) s with
            waitList := s.waitList ++ [i] }))
  | releases (i : RecNo) (token : Word) (named : s.named l (fieldAt body 0 2) = some i)
      (holding : (s.record i).state.token = some token) :
      Accepted l tag body s .release (.doneRelease (s.handle i) token) false
        (grantScan (freeHolding i (concludeConversion i s)))
  | downgrades (i : RecNo) (o : LinkNo) (b : Block) (token : Word) (hold : Option Hold)
      (named : s.named l (ConvertReq.ofBody body).handle = some i)
      (mode : Mode.ofCode (ConvertReq.ofBody body).mode = some .shared)
      (state : (s.record i).state = .held o b .exclusive token hold) :
      Accepted l tag body s .convert (.doneHolding (s.handle i) token .shared) false
        (grantScan (s.putState i (.held o b .shared token hold)))
  | upgrades (i : RecNo) (o : LinkNo) (b : Block) (token : Word) (hold : Option Hold)
      (named : s.named l (ConvertReq.ofBody body).handle = some i)
      (mode : Mode.ofCode (ConvertReq.ofBody body).mode = some .exclusive)
      (state : (s.record i).state = .held o b .shared token hold) (alone : s.otherHeldOver i b = false)
      (unspent : s.tokensSpent = false) :
      Accepted l tag body s .convert (.doneHolding (s.handle i) s.nextToken .exclusive) false
        (issueToken (s.putState i (.held o b .exclusive s.nextToken hold)))
  | converts (i : RecNo) (o : LinkNo) (b : Block) (token : Word) (hold : Option Hold)
      (named : s.named l (ConvertReq.ofBody body).handle = some i)
      (mode : Mode.ofCode (ConvertReq.ofBody body).mode = some .exclusive)
      (state : (s.record i).state = .held o b .shared token hold) (others : s.otherHeldOver i b = true)
      (settled : s.otherConvertingOver i b = false) :
      Accepted l tag body s .convert (.waitingRecord (s.handle i) 0) false
        (openTag l tag (.convert i)
          (s.putState i (.converting o b token tag (s.waitDue (ConvertReq.ofBody body).wait) hold)))
  | cancels (x : OpenTag) (found : (s.session l).lookup (byteAt body 0) = some x) :
      Accepted l tag body s .cancel (.doneCancel (byteAt body 0)) false (scanAfterCancel x.ref (cancelEntry l x s))
  | findsFree : Accepted l tag body s .watch .doneEmpty false s
  | watches (q : WatchReq) (w : Window) (i : RecNo) (fields : q = WatchReq.ofBody body)
      (admits : Admits s l q.block w) (free : s.lowestFree = some i) (quota : BelowQuota s l)
      (room : s.watchListFull = false) (held : s.heldOver (w.translate q.block) = true) :
      Accepted l tag body s .watch (.waitingRecord (s.handle i) (s.watchList ++ [i]).length) false
        (openTag l tag (.watch i)
          { allocate i l (.watching l (w.translate q.block) tag (s.waitDue q.wait)) s with
            watchList := s.watchList ++ [i] })
  | queries (b : Block) : Accepted l tag body s .query (queryAnswer b s) false s
  | completes (g : GroupNo) (group : groupOf (ArriveReq.ofBody body).group = some g) (member : (s.groupDef g).has l = true)
      (fresh : hasArrived (s.group g).arrivals l = false) (complete : s.completes g l = true) :
      Accepted l tag body s .arrive (.doneArrive g (s.group g).generation ((s.group g).arrivals.length + 1)
        ((s.group g).arrivals.length + 1)) false (passRound g ((s.group g).arrivals.length + 1) s)
  | arrives (g : GroupNo) (group : groupOf (ArriveReq.ofBody body).group = some g) (member : (s.groupDef g).has l = true)
      (fresh : hasArrived (s.group g).arrivals l = false) (incomplete : s.completes g l = false) (list : List Arrival)
      (appended : list = (s.group g).arrivals ++
        [{ link := l, tag := tag, due := s.waitDue (ArriveReq.ofBody body).wait }]) :
      Accepted l tag body s .arrive (.waitingArrive g (s.group g).generation list.length) false
        (openTag l tag (.arrival g) (s.putGroup g { s.group g with arrivals := list }))
  | setsLink (q : SetLinkReq) (n : LinkNo) (fields : q = SetLinkReq.ofBody body) (good : q.badField s.management = none)
      (link : linkOf q.link = some n) (adopts : Bool)
      (carried : adopts = (s.management = some n && (q.baud ≠ (s.settings n).baud || q.gap ≠ (s.settings n).gap))) :
      Accepted l tag body s .setLink .doneEmpty adopts (writeLink n q.settings s)
  | setsWindow (n : LinkNo) (k : WindowNo) (w : Window) :
      Accepted l tag body s .setWindow .doneEmpty false (writeWindow n k w s)
  | setsGroup (g : GroupNo) (d : GroupDef) (range : GroupDefInRange d) :
      Accepted l tag body s .setGroup .doneEmpty false (writeGroup g d s)
  | setsFloor : Accepted l tag body s .setFloor (.doneFloor (floored s.tokens body)) false
      { s with tokens := floored s.tokens body }
  | starts : Accepted l tag body s .start (.doneStart (s.epoch + 1)) false (startService s)
  | restarts : Accepted l tag body s .restart .doneEmpty false
      (clearGroups (clearPool (endSessions { s with service := .setup })))
  | reads (m : Message) (item : profileItem (fieldAt body 0 1) (fieldAt body 1 1) s = .ok m) :
      Accepted l tag body s .profile m false s
  | evicts (n : LinkNo) (target : linkOf (byteAt body 0) = some n) (is_open : (s.session n).isOpen = true)
      (other : s.management ≠ some n) :
      Accepted l tag body s .evict .doneEmpty false (lapse n .evicted s)

/-- A request is answered: refused with nothing else done, or accepted with its reply queued last (R154, R155). -/
def Answered (k : ReqKind) (l : LinkNo) (tag : Byte) (body : List Byte) (s u : State) : Prop :=
  (∃ r d, u = refuse l tag r d s) ∨
  ∃ m adopts v, Accepted l tag body s k m adopts v ∧ u = queueFree l { tag := tag, msg := m, adopts := adopts } v

theorem Answered.refused (k : ReqKind) (l : LinkNo) (tag : Byte) (body : List Byte) (r : Reason) (d : Byte) (s : State) :
    Answered k l tag body s (refuse l tag r d s) := .inl ⟨r, d, rfl⟩

theorem Answered.accepted {k : ReqKind} {l : LinkNo} {tag : Byte} {body : List Byte} {m : Message} {s v : State}
    (h : Accepted l tag body s k m false v) : Answered k l tag body s (reply l tag m v) := .inr ⟨m, false, v, h, rfl⟩

/-! ### Session requests -/

theorem answered_openSession (l : LinkNo) (tag : Byte) (body : List Byte) (s : State) :
    Answered .openSession l tag body s (openSession l tag body s) := by
  unfold openSession
  split
  · exact .refused ..
  · exact .refused ..
  · rename_i closed
    exact .accepted (.opens closed)

theorem answered_closeSession (l : LinkNo) (tag : Byte) (body : List Byte) (s : State) :
    Answered .closeSession l tag body s (closeSession l tag body s) := by
  unfold closeSession
  split
  · exact .refused ..
  · rename_i lapsed
    exact .accepted (.closesLapsed lapsed)
  · rename_i d e opened
    exact .accepted (.closesOpen (Session.isOpen_of_opened opened))

theorem answered_status (l : LinkNo) (tag : Byte) (body : List Byte) (s : State) :
    Answered .status l tag body s (status l tag body s) := by
  unfold status
  split
  · exact .accepted .linkStatus
  · exact .accepted .partStatus
  · exact .refused ..

theorem answered_cancel (l : LinkNo) (tag : Byte) (body : List Byte) (s : State) :
    Answered .cancel l tag body s (cancel l tag body s) := by
  unfold cancel
  split
  · exact .refused ..
  · rename_i x found
    exact .accepted (.cancels x found)

/-! ### Lock requests -/

theorem answered_acquire (l : LinkNo) (tag : Byte) (body : List Byte) (s : State) :
    Answered .acquire l tag body s (acquire l tag body s) := by
  unfold acquire
  dsimp only
  split
  · exact .refused ..
  rename_i b m admitted
  obtain ⟨w, admits, -, -, rfl⟩ := admits_of_admitAcquire admitted
  split
  · rename_i blocked
    split
    · exact .refused ..
    unfold enterWaitList
    split
    · exact .refused ..
    · exact .refused ..
    · rename_i i room free
      obtain ⟨quota, -, full⟩ := (roomTest_eq_none_iff ..).1 room
      exact .accepted (.waits _ m w i rfl admits free quota full blocked)
  · rename_i open_
    unfold grantAtOnce
    split
    · exact .refused ..
    · exact .refused ..
    · rename_i i room free
      split
      · exact .refused ..
      · rename_i unspent
        obtain ⟨quota, -, -⟩ := (roomTest_eq_none_iff ..).1 room
        exact .accepted (.holds _ m w i rfl admits free quota (Bool.eq_false_iff.2 unspent) (Bool.eq_false_iff.2 open_))

theorem answered_release (l : LinkNo) (tag : Byte) (body : List Byte) (s : State) :
    Answered .release l tag body s (release l tag body s) := by
  unfold release
  split
  · exact .refused ..
  rename_i i named
  split
  · rename_i token _ state
    exact .accepted (.releases i token named (by rw [state]; rfl))
  · rename_i token _ _ _ state
    exact .accepted (.releases i token named (by rw [state]; rfl))
  · exact .refused ..
  · exact .refused ..
  · exact .refused ..

theorem answered_upgrade (l : LinkNo) (tag : Byte) (body : List Byte) (i : RecNo) (o : LinkNo) (b : Block) (token : Word)
    (hold : Option Hold) (s : State) (named : s.named l (ConvertReq.ofBody body).handle = some i)
    (mode : Mode.ofCode (ConvertReq.ofBody body).mode = some .exclusive)
    (state : (s.record i).state = .held o b .shared token hold) :
    Answered .convert l tag body s (upgrade l tag i o b token hold (ConvertReq.ofBody body).wait s) := by
  unfold upgrade
  split
  · rename_i others
    split
    · exact .refused ..
    · rename_i settled
      split
      · exact .refused ..
      · exact .accepted (.converts i o b token hold named mode state others (Bool.eq_false_iff.2 settled))
  · rename_i alone
    split
    · exact .refused ..
    · rename_i unspent
      exact .accepted (.upgrades i o b token hold named mode state (Bool.eq_false_iff.2 alone) (Bool.eq_false_iff.2 unspent))

theorem answered_convert (l : LinkNo) (tag : Byte) (body : List Byte) (s : State) :
    Answered .convert l tag body s (convert l tag body s) := by
  unfold convert
  dsimp only
  split
  · exact .refused ..
  rename_i i named
  split
  · exact .refused ..
  · rename_i target o b mode token hold code state
    split
    · exact .refused ..
    rename_i change
    cases target with
    | shared =>
      cases mode with
      | shared => exact absurd rfl change
      | exclusive => exact .accepted (.downgrades i o b token hold named code state)
    | exclusive =>
      cases mode with
      | exclusive => exact absurd rfl change
      | shared => exact answered_upgrade l tag body i o b token hold s named code state
  · exact .refused ..

theorem answered_watch (l : LinkNo) (tag : Byte) (body : List Byte) (s : State) :
    Answered .watch l tag body s (watch l tag body s) := by
  unfold watch
  dsimp only
  split
  · exact .refused ..
  rename_i b admitted
  obtain ⟨w, admits, rfl⟩ := admits_of_admitBlock admitted
  split
  · rename_i held
    split
    · exact .refused ..
    unfold enterWatchList
    split
    · exact .refused ..
    · exact .refused ..
    · rename_i i room free
      obtain ⟨quota, -, full⟩ := (roomTest_eq_none_iff ..).1 room
      exact .accepted (.watches _ w i rfl admits free quota full held)
  · exact .accepted .findsFree

theorem answered_query (l : LinkNo) (tag : Byte) (body : List Byte) (s : State) :
    Answered .query l tag body s (query l tag body s) := by
  unfold query
  split
  · exact .refused ..
  · exact .accepted (.queries _)

/-! ### ARRIVE -/

theorem answered_arrive (l : LinkNo) (tag : Byte) (body : List Byte) (s : State) :
    Answered .arrive l tag body s (arrive l tag body s) := by
  unfold arrive
  dsimp only
  split
  · exact .refused ..
  rename_i g group
  split
  · exact .refused ..
  rename_i member
  split
  · exact .refused ..
  rename_i fresh
  rw [Bool.not_eq_true', Bool.not_eq_false] at member
  split
  · rename_i complete
    exact .accepted (.completes g group member (Bool.eq_false_iff.2 fresh) complete)
  · rename_i incomplete
    split
    · exact .refused ..
    · exact .accepted (.arrives g group member (Bool.eq_false_iff.2 fresh) (Bool.eq_false_iff.2 incomplete) _ rfl)

/-! ### Profile and service control -/

theorem answered_setLink (l : LinkNo) (tag : Byte) (body : List Byte) (s : State) :
    Answered .setLink l tag body s (setLink l tag body s) := by
  unfold setLink
  dsimp only
  split
  · exact .refused ..
  · exact .refused ..
  · rename_i n good link
    exact .inr ⟨_, _, _, .setsLink _ n rfl good link _ rfl, rfl⟩

theorem answered_setWindow (l : LinkNo) (tag : Byte) (body : List Byte) (s : State) :
    Answered .setWindow l tag body s (setWindow l tag body s) := by
  unfold setWindow
  dsimp only
  split
  · exact .refused ..
  · exact .accepted (.setsWindow ..)
  · exact .refused ..

theorem answered_setGroup (l : LinkNo) (tag : Byte) (body : List Byte) (s : State) :
    Answered .setGroup l tag body s (setGroup l tag body s) := by
  unfold setGroup
  dsimp only
  split
  · exact .refused ..
  · rename_i g m good _ _
    exact .accepted (.setsGroup g _ (SetGroupReq.badField_eq_none good m))
  · exact .refused ..

theorem answered_profile (l : LinkNo) (tag : Byte) (body : List Byte) (s : State) :
    Answered .profile l tag body s (profile l tag body s) := by
  unfold profile
  split
  · exact .refused ..
  · rename_i m item
    exact .accepted (.reads m item)

theorem answered_evict (l : LinkNo) (tag : Byte) (body : List Byte) (s : State) :
    Answered .evict l tag body s (evict l tag body s) := by
  unfold evict
  split
  · exact .refused ..
  rename_i n target
  split
  · exact .refused ..
  rename_i other
  split
  · exact .refused ..
  · rename_i is_open
    rw [Bool.not_eq_true', Bool.not_eq_false] at is_open
    exact .accepted (.evicts n target is_open other)

/-- Every owner refuses the request or accepts it. -/
theorem answered (k : ReqKind) (l : LinkNo) (tag : Byte) (body : List Byte) (s : State) :
    Answered k l tag body s (answer k l tag body s) := by
  cases k with
  | openSession => exact answered_openSession ..
  | closeSession => exact answered_closeSession ..
  | renew => exact .accepted .renews
  | status => exact answered_status ..
  | acquire => exact answered_acquire ..
  | release => exact answered_release ..
  | convert => exact answered_convert ..
  | cancel => exact answered_cancel ..
  | watch => exact answered_watch ..
  | query => exact answered_query ..
  | arrive => exact answered_arrive ..
  | setLink => exact answered_setLink ..
  | setWindow => exact answered_setWindow ..
  | setGroup => exact answered_setGroup ..
  | setFloor =>
    rw [show answer .setFloor l tag body s = _ from setFloor_eq l tag body s]
    exact .accepted .setsFloor
  | start => exact .accepted .starts
  | restart => exact .accepted .restarts
  | profile => exact answered_profile ..
  | evict => exact answered_evict ..

/-- A command that is a request does not come about, or takes its frame and refuses it, or takes its frame and is accepted. -/
theorem exec_request_cases {c : Instr} {k : ReqKind} {l : LinkNo} {tag : Byte} {body : List Byte} {s t : State}
    (request : requestOf c = some (k, l, tag, body)) (h : exec c s = .next t) :
    t = s ∨ ∃ u, TakesFrame l { kind := k.code, tag := tag, body := body } s u ∧
      ((∃ r d, t = refuse l tag r d u) ∨ PassesChecks k l tag body u ∧ ∃ m adopts v, Accepted l tag body u k m adopts v ∧
        t = queueFree l { tag := tag, msg := m, adopts := adopts } v) := by
  rcases serve_cases ((exec_request c k l tag body s request).symm.trans h) with same | ⟨u, taken, outcome⟩
  · exact .inl same
  · refine .inr ⟨u, taken, ?_⟩
    rcases outcome with ⟨r, -, refused⟩ | ⟨pass, rfl⟩
    · exact .inl ⟨r, 0, refused⟩
    · exact (answered k l tag body u).imp_right (⟨pass, ·⟩)

end Sys2Proof.Machine
end

section
/-! PROOFS. What leaves the lock record pool as it is: records, lists and token counter. -/

namespace Sys2Proof.Machine

open Sys2Proof.Safety

/-- The part of the state that the grant scan reads. -/
def State.pool (s : State) : Vector Record 128 × List RecNo × List RecNo × Word :=
  (s.records, s.waitList, s.watchList, s.tokens)

theorem State.pool_eq_iff (s t : State) : t.pool = s.pool ↔
    t.records = s.records ∧ t.waitList = s.waitList ∧ t.watchList = s.watchList ∧ t.tokens = s.tokens := by
  simp [State.pool]

@[simp] theorem pool_putLink (s : State) (l : LinkNo) (u : LinkUnit) : (s.putLink l u).pool = s.pool := rfl

@[simp] theorem pool_putSession (s : State) (l : LinkNo) (x : Session) : (s.putSession l x).pool = s.pool := rfl

@[simp] theorem pool_putSessState (l : LinkNo) (x : SessState) (s : State) : (putSessState l x s).pool = s.pool := rfl

@[simp] theorem pool_putGroup (s : State) (g : GroupNo) (x : Group) : (s.putGroup g x).pool = s.pool := rfl

@[simp] theorem pool_queueFree (l : LinkNo) (e : OutEntry) (s : State) : (queueFree l e s).pool = s.pool := rfl

@[simp] theorem pool_refuse (l : LinkNo) (tag : Byte) (r : Reason) (d : Byte) (s : State) :
    (refuse l tag r d s).pool = s.pool := rfl

@[simp] theorem pool_unreserve (l : LinkNo) (s : State) : (unreserve l s).pool = s.pool := rfl

@[simp] theorem pool_openTag (l : LinkNo) (tag : Byte) (ref : TagRef) (s : State) : (openTag l tag ref s).pool = s.pool :=
  rfl

@[simp] theorem pool_reserveHold (l : LinkNo) (limit : Option Nat) (s : State) :
    (reserveHold l limit s).pool = s.pool := by
  unfold reserveHold
  split <;> rfl

/-- What every step of a fold leaves, the fold leaves. -/
theorem pool_foldl {α : Type} (f : State → α → State) (step : ∀ t a, (f t a).pool = t.pool) (list : List α) (s : State) :
    (list.foldl f s).pool = s.pool := by
  induction list generalizing s with
  | nil => rfl
  | cons a rest ih => rw [List.foldl_cons, ih, step]

/-! ### Barrier groups -/

@[simp] theorem pool_notifyArrivals (notice : Nat → Message) (rank : Nat) (list : List Arrival) (s : State) :
    (notifyArrivals notice rank list s).pool = s.pool :=
  notifyArrivals_induct (fun t => t.pool = s.pool) notice (fun _ _ _ _ h => h) rank list s rfl

@[simp] theorem pool_passRound (g : GroupNo) (count : Nat) (s : State) : (passRound g count s).pool = s.pool :=
  pool_notifyArrivals ..

@[simp] theorem pool_breakRound (g : GroupNo) (cause : BreakCause) (others : List Arrival) (s : State) :
    (breakRound g cause others s).pool = s.pool :=
  pool_notifyArrivals ..

@[simp] theorem pool_expireArrival (g : GroupNo) (a : Arrival) (s : State) : (expireArrival g a s).pool = s.pool :=
  pool_breakRound ..

@[simp] theorem pool_depart (l : LinkNo) (s : State) : (depart l s).pool = s.pool := by
  refine pool_foldl _ (fun t g => ?_) _ s
  unfold departGroup
  split
  · exact pool_breakRound ..
  · rfl

@[simp] theorem pool_retest (l : LinkNo) (s : State) : (retest l s).pool = s.pool := by
  refine pool_foldl _ (fun t g => ?_) _ s
  unfold retestGroup
  split
  · exact pool_passRound ..
  · rfl

/-! ### Link units -/

theorem pool_adopt (l : LinkNo) (s : State) : (adopt l s).pool = s.pool := by rw [adopt_eq]; rfl

theorem pool_clearLink (l : LinkNo) (s : State) : (clearLink l s).pool = s.pool := by
  unfold clearLink
  dsimp only
  split
  · rw [pool_adopt]; rfl
  · rfl

theorem pool_renewLease (l : LinkNo) (s : State) : (renewLease l s).pool = s.pool := by
  unfold renewLease
  split <;> rfl

theorem pool_admitFrame (l : LinkNo) (f : Frame) (s : State) : (admitFrame l f s).pool = s.pool := by
  unfold admitFrame
  dsimp only
  split <;> exact pool_renewLease l s

theorem pool_rxEffect (l : LinkNo) (e : RxEvent) (s : State) : (rxEffect l e s).pool = s.pool := by
  cases e with
  | quiet | badLength => rfl
  | complete n bytes c d poisoned =>
    unfold rxEffect
    dsimp only
    split
    · rfl
    · split
      · exact pool_admitFrame ..
      · rfl

theorem pool_endCharacter (l : LinkNo) (v : Byte) (faulty : Bool) (s : State) :
    (endCharacter l v faulty s).pool = s.pool := by
  unfold endCharacter
  dsimp only
  rw [pool_rxEffect, pool_putLink]

theorem pool_lineReturned (l : LinkNo) (s : State) : (lineReturned l s).pool = s.pool := by
  unfold lineReturned
  split
  · rfl
  · rfl
  · split <;> rfl

theorem pool_runGapTimer (l : LinkNo) (n : Nat) (s : State) : (runGapTimer l n s).pool = s.pool := by
  unfold runGapTimer
  split
  · rfl
  · split <;> rfl
  · rfl

theorem pool_finishEntry (l : LinkNo) (e : OutEntry) (rest : List OutEntry) (s : State) :
    (finishEntry l e rest s).pool = s.pool := by
  unfold finishEntry
  dsimp only
  split
  · rw [pool_adopt]; rfl
  · rfl

theorem pool_runTransmitter (l : LinkNo) (n : Nat) (s : State) : (runTransmitter l n s).pool = s.pool := by
  unfold runTransmitter
  split
  · rfl
  · rfl
  · split
    · split
      · exact pool_finishEntry ..
      · rfl
    · rfl

theorem pool_linePeriod (s : State) : (linePeriod s).pool = s.pool :=
  pool_foldl _ (fun t l => by unfold linkPeriod; rw [pool_runTransmitter, pool_runGapTimer]) _ s

/-! ### Profile and service control -/

theorem pool_writeLink (n : LinkNo) (new : LinkSettings) (s : State) : (writeLink n new s).pool = s.pool := by
  have switched (t : State) : (if (s.settings n).enabled && !new.enabled then disableLink n t
      else if !(s.settings n).enabled && new.enabled then enableLink n t else t).pool = t.pool := by
    split
    · rfl
    · split <;> rfl
  unfold writeLink
  dsimp only
  split
  · exact switched _
  · rw [pool_adopt]
    exact switched _

theorem pool_latchStraps (straps : Straps) (s : State) : (latchStraps straps s).pool = s.pool := by
  unfold latchStraps
  dsimp only
  split <;> rfl

theorem pool_takesFrame {l : LinkNo} {f : Frame} {s t : State} (taken : TakesFrame l f s t) : t.pool = s.pool := by
  obtain ⟨_, _, -, -, -, -, rfl⟩ := taken
  rfl

end Sys2Proof.Machine
end

section
/-! PROOFS. R50: after every step nothing is left that the grant scan could grant or fire. An event that takes claims away ends
with a scan; every other event takes no claim away. -/

namespace Sys2Proof.Machine

open Sys2Proof.Safety

/-! ### Reading the pool -/

theorem listsMatch_of_pool {s t : State} (same : t.pool = s.pool) (h : ListsMatch s) : ListsMatch t := by
  obtain ⟨records, waitList, watchList, -⟩ := (s.pool_eq_iff t).1 same
  unfold ListsMatch State.record
  rw [records, waitList, watchList]
  exact h

theorem scanSettled_of_pool {s t : State} (same : t.pool = s.pool) (h : ScanSettled s) : ScanSettled t := by
  refine ⟨listsMatch_of_pool same h.1, ?_⟩
  obtain ⟨records, waitList, -, tokens⟩ := (s.pool_eq_iff t).1 same
  unfold NothingUnblocked State.heldOver State.otherHeldOver State.heldAgainst State.earlierAgainst State.tokensSpent
    State.record
  rw [records, waitList, tokens]
  exact h.2

/-- Every step keeps the lists in agreement with the pool. -/
theorem kept_listsMatch : Kept ListsMatch where
  move := by
    intro s t m h
    cases m with
    | work w => exact w.listsMatch h
    | take l f taken => exact listsMatch_of_pool (pool_takesFrame taken) h
    | opens | renew | close | lapse | write | start => exact h
    | restart =>
      exact (pool_cleared (state_cleared _) rfl rfl fun l => by rw [session_cleared]).1
  instant _ h := h
  queue _ h := h
  power straps _ := by
    refine listsMatch_of_pool (pool_latchStraps straps _) ?_
    exact (lists_reset (fun i => congrArg Record.state (record_reset i)) rfl rfl rfl rfl rfl).1
  falling _ := (lists_reset (state_resetValues _) rfl rfl rfl rfl rfl).1
  rising straps _ h := listsMatch_of_pool (pool_latchStraps straps _) h

/-! ### Claims that grow -/

/-- Every holding is still one on its block, and an exclusive one is still exclusive. -/
def HoldingsGrow (s t : State) : Prop :=
  ∀ j c n, (s.record j).state.holding = some (c, n) →
    ∃ k, (t.record j).state.holding = some (c, k) ∧ (n = .exclusive → k = .exclusive)

theorem HoldingsGrow.holdsOver {s t : State} (grow : HoldingsGrow s t) {j : RecNo} {b : Block} (h : HoldsOver s j b) :
    HoldsOver t j b := by
  obtain ⟨c, holds, meets⟩ := h
  obtain ⟨⟨d, n⟩, holding, rfl⟩ := Option.map_eq_some_iff.1 holds
  obtain ⟨k, after, -⟩ := grow j d n holding
  exact ⟨d, by rw [holdingBlock, after]; rfl, meets⟩

theorem HoldingsGrow.heldOver {s t : State} (grow : HoldingsGrow s t) {b : Block} (h : s.heldOver b = true) :
    t.heldOver b = true :=
  (heldOver_iff ..).2 (((heldOver_iff ..).1 h).imp fun _ => grow.holdsOver)

theorem HoldingsGrow.otherHeldOver {s t : State} (grow : HoldingsGrow s t) {i : RecNo} {b : Block}
    (h : s.otherHeldOver i b = true) : t.otherHeldOver i b = true :=
  (otherHeldOver_iff ..).2 (((otherHeldOver_iff ..).1 h).imp fun _ => And.imp_right grow.holdsOver)

theorem HoldingsGrow.heldAgainst {s t : State} (grow : HoldingsGrow s t) {b : Block} {m : Mode}
    (h : s.heldAgainst b m = true) : t.heldAgainst b m = true := by
  obtain ⟨j, c, n, holding, meets, mode⟩ := (heldAgainst_iff_holdingConflicts ..).1 h
  obtain ⟨k, after, exclusive⟩ := grow j c n holding
  exact (heldAgainst_iff_holdingConflicts ..).2 ⟨j, c, k, after, meets, mode.imp_right exclusive⟩

/-! ### After a scan -/

/-- A scan takes no holding away, and what it grants becomes one with its claim. -/
theorem Progress.holdingsGrow {s t : State} (lists : ListsMatch s) (p : Progress s t (scanGrants s) (scanFires s)) :
    HoldingsGrow s t := by
  have ⟨_, _, _, watches⟩ := lists
  intro j c n holding
  by_cases listed : j ∈ scanGrants s
  · obtain ⟨k, at_⟩ := List.mem_iff_getElem?.1 listed
    have asks := asked_of_mem_scanGrants lists listed
    refine ⟨n, ?_, id⟩
    rw [p.grants k j at_, (granted_holding asks).1]
    rcases asks with converting | waiting
    · rw [← holding_of_isConverting converting, holding]
    · rw [holding_isSome_not_waiting holding] at waiting; cases waiting
  · by_cases gone : j ∈ scanFires s
    · have watching := (watches j).1 (List.mem_of_mem_filter gone)
      cases state : (s.record j).state <;> simp [state, RecState.isWatching, RecState.holding] at watching holding
    · exact ⟨n, by rw [p.others j listed gone, holding], id⟩

/-- A record that conflicted in the wait list conflicts as a holding once it is granted. -/
theorem Progress.heldAgainst_of_granted {s t : State} (lists : ListsMatch s)
    (p : Progress s t (scanGrants s) (scanFires s)) {j : RecNo} (listed : j ∈ scanGrants s) {b : Block} {m : Mode}
    (conflict : WaitingConflicts s j b m) : t.heldAgainst b m = true := by
  obtain ⟨o, c, n, g, d, h, state, meets, mode⟩ := conflict
  obtain ⟨k, at_⟩ := List.mem_iff_getElem?.1 listed
  refine (heldAgainst_iff_holdingConflicts ..).2 ⟨j, c, n, ?_, meets, mode⟩
  rw [p.grants k j at_, (granted_holding (asked_of_mem_scanGrants lists listed)).1, state]
  rfl

/-- A granted record is a holding. -/
theorem state_granted {s t : State} (lists : ListsMatch s) (p : Progress s t (scanGrants s) (scanFires s)) {i : RecNo}
    (listed : i ∈ scanGrants s) : (t.record i).state.holding.isSome = true ∧ (t.record i).state.isConverting = false := by
  obtain ⟨k, at_⟩ := List.mem_iff_getElem?.1 listed
  rw [p.grants k i at_]
  rcases asked_of_mem_scanGrants lists listed with asks | asks <;>
    cases state : (s.record i).state <;> simp [state, RecState.isConverting, RecState.isWaiting] at asks <;> exact ⟨rfl, rfl⟩

/-- A record that still waits after a scan was passed over by it. -/
theorem Progress.passedOver {s t : State} (lists : ListsMatch s) (p : Progress s t (scanGrants s) (scanFires s)) {i : RecNo}
    (waits : (t.record i).state.isWaiting = true ∨ (t.record i).state.isConverting = true ∨
      (t.record i).state.isWatching = true) :
    i ∉ scanGrants s ∧ i ∉ scanFires s ∧ t.record i = s.record i := by
  have ungranted : i ∉ scanGrants s := fun listed => by
    obtain ⟨holding, converting⟩ := state_granted lists p listed
    cases state : (t.record i).state <;>
      simp [state, RecState.isConverting, RecState.isWaiting, RecState.isWatching, RecState.holding]
        at waits holding converting
  have unfired : i ∉ scanFires s := fun listed => by
    rw [p.firings i listed] at waits
    simp [freed, RecState.isConverting, RecState.isWaiting, RecState.isWatching] at waits
  exact ⟨ungranted, unfired, p.others i ungranted unfired⟩

/-- While tokens are left after a scan, it has granted everything that was free (R48). -/
theorem Progress.grantsAll {s t : State} (p : Progress s t (scanGrants s) (scanFires s)) (unspent : t.tokensSpent = false) :
    scanGrants s = freeConverters s ++ s.waitList.filter (waiterFree s) := by
  have short : (scanGrants s).length ≠ tokensLeft s := fun full =>
    Bool.false_ne_true (unspent.symm.trans ((p.tokensSpent_iff (List.length_take_le ..)).2 full))
  unfold scanGrants grantsUpTo at short ⊢
  rw [List.length_take] at short
  exact List.take_of_length_le (by omega)

/-- R50 after a scan. -/
theorem nothingUnblocked_grantScan {s : State} (lists : ListsMatch s) : NothingUnblocked (grantScan s) := by
  have p := grantScan_progress lists
  have grow := p.holdingsGrow lists
  have ⟨nodup, _, waits, watches⟩ := lists
  refine ⟨fun i o b g d state => ?_, fun unspent => ⟨fun i o b k g d h state => ?_,
    fun before i after o b m g d h order state => ?_⟩⟩
  · obtain ⟨-, unfired, old⟩ := p.passedOver lists (.inr (.inr (by rw [state]; rfl)))
    rw [old] at state
    have listed : i ∈ s.watchList := (watches i).2 (by rw [state]; rfl)
    have held : watchFree s (afterGrants s) i = false :=
      Bool.eq_false_iff.2 fun free => unfired (List.mem_filter.2 ⟨listed, free⟩)
    rw [watchFree, state, Bool.not_eq_false'] at held
    rw [p.heldOver (afterGrants_progress lists) fun j fires => (watches j).1 (List.mem_of_mem_filter fires)]
    exact held
  · obtain ⟨ungranted, -, old⟩ := p.passedOver lists (.inr (.inl (by rw [state]; rfl)))
    rw [old] at state
    rw [p.grantsAll unspent] at ungranted
    by_contra alone
    refine ungranted (List.mem_append_left _ (List.mem_filter.2 ⟨List.mem_finRange i, (converterFree_iff s i).2 ?_⟩))
    exact ⟨o, b, k, g, d, h, state, fun j other holds =>
      alone (grow.otherHeldOver ((otherHeldOver_iff ..).2 ⟨j, other, holds⟩))⟩
  · obtain ⟨ungranted, -, old⟩ := p.passedOver lists (.inl (by rw [state]; rfl))
    rw [old] at state
    rw [p.waitList] at order
    obtain ⟨earlier, rest, listed, rfl, remaining⟩ := List.filter_eq_append_iff.1 order
    obtain ⟨more, later, rfl, none, -, rfl⟩ := List.filter_eq_cons_iff.1 remaining
    have whole : s.waitList = (earlier ++ more) ++ i :: later := by simp [listed]
    have blocked : waiterFree s i = false := by
      refine Bool.eq_false_iff.2 fun free => ungranted ?_
      rw [p.grantsAll unspent]
      exact List.mem_append_right _ (List.mem_filter.2 ⟨by simp [whole], free⟩)
    have conflict : s.heldAgainst b m = true ∨ s.earlierAgainst (earlier ++ more) b m = true := by
      rw [waiterFree, whole, takeWhile_ne_of_nodup (whole ▸ nodup), waiterOpen, state] at blocked
      cases held : s.heldAgainst b m <;> simp_all
    rcases conflict with held | early
    · exact .inl (grow.heldAgainst held)
    · obtain ⟨j, among, against⟩ := (earlierAgainst_iff ..).1 early
      by_cases granted : j ∈ scanGrants s
      · exact .inl (p.heldAgainst_of_granted lists granted against)
      · refine .inr ((earlierAgainst_iff ..).2 ⟨j, List.mem_filter.2 ⟨?_, decide_eq_true granted⟩, ?_⟩)
        · rcases List.mem_append.1 among with first | second
          · exact first
          · exact absurd (none j second) (by simpa using granted)
        · obtain ⟨waiting, blocks⟩ := (waitingConflicts_iff ..).1 against
          have unfired : j ∉ scanFires s := fun fires => by
            have := (watches j).1 (List.mem_of_mem_filter fires)
            cases state : (s.record j).state <;> simp [state, RecState.isWaiting, RecState.isWatching] at waiting this
          rw [waitingConflicts_iff, p.others j granted unfired]
          exact ⟨waiting, blocks⟩

/-- Every event that ends with a scan leaves R50, whatever it did before. -/
theorem scanSettled_of_scan {s u t : State} (moves : Moves s u) (pool : t.pool = (grantScan u).pool) (lists : ListsMatch s) :
    ScanSettled t := by
  have before : ListsMatch u := moves.keeps kept_listsMatch.move lists
  have after : ListsMatch (grantScan u) := (works_grantScan u).moves.keeps kept_listsMatch.move before
  exact scanSettled_of_pool pool ⟨after, nothingUnblocked_grantScan before⟩

end Sys2Proof.Machine
end

section
/-! PROOFS. The commands that are no requests, one case for each event; and the expiries that time delivers, packaged once. -/

namespace Sys2Proof.Machine

open Sys2Proof.Safety

/-- An event that comes about, other than a request, a reset and the tick, with its guard and the state it leaves. -/
inductive Event (s : State) : Instr → State → Prop where
  | lease (l : LinkNo) (d : Instant) (armed : (s.session l).leaseDeadline = some d) (due : s.reached d = true)
      (high : s.resetHeld = false) : Event s (.leaseDeadlineExpiry l) (lapse l .lapsed s)
  | lockWait (i : RecNo) (state : (s.record i).state.isWaiting = true) : Event s (.lockWaitDeadlineExpiry i) (expireWait i s)
  | convertWait (i : RecNo) (state : (s.record i).state.isConverting = true) :
      Event s (.convertWaitDeadlineExpiry i) (expireWait i s)
  | watchWait (i : RecNo) (state : (s.record i).state.isWatching = true) :
      Event s (.watchWaitDeadlineExpiry i) (expireWait i s)
  | hold (i : RecNo) (d : Instant) (armed : (s.record i).state.holdDeadline = some d) :
      Event s (.holdDeadlineExpiry i) (expireHold i s)
  | arrival (g : GroupNo) (a : Arrival) (listed : a ∈ (s.group g).arrivals) :
      Event s (.arrivalDeadlineExpiry g a.link) (expireArrival g a s)
  | gap (l : LinkNo) (works : s.receives l = true) : Event s (.gapTimerExpiry l)
      (runGapTimer l ((lineReturned l s).link l).gapLeft (lineReturned l s))
  | character (c : Instr) (l : LinkNo) (v : Byte) (works : s.receives l = true)
      (name : c = .characterReceivedWhole l v ∨ c = .lengthFault l v ∨ c = .frameReceived l v) :
      Event s c (endCharacter l v false s)
  | stopBit (l : LinkNo) (v : Byte) (works : s.receives l = true) :
      Event s (.stopBitFault l v) (endCharacter l v true (countFault l .framing s))
  | breakEnd (l : LinkNo) (works : s.receives l = true) : Event s (.breakEnd l) (sessionAtBreak l (clearLink l s))
  | transmitStart (l : LinkNo) (e : OutEntry) (rest : List OutEntry) (head : (s.link l).outbound = e :: rest) :
      Event s (.frameTransmitStart l) (s.putLink l { s.link l with transmitter := .sending (s.link l).baud e.chars 0 })
  | transmitted (l : LinkNo) : Event s (.entryTransmitted l) (runTransmitter l (s.link l).transmitter.frameLeft s)
  | startEdge (l : LinkNo) : Event s (.startEdge l) ((lineReturned l s).putLink l
      { (lineReturned l s).link l with inCharacter := true, gapTimer := .stopped })
  | unknownKind (l : LinkNo) (kind tag : Byte) (body : List Byte) (u : State)
      (taken : TakesFrame l { kind := kind, tag := tag, body := body } s u) :
      Event s (.unknownKindFrame l kind tag body) (refuse l tag .unknownKind 0 u)

/-- A command that is neither a request nor a reset nor the tick does nothing, or its event comes about. -/
theorem exec_event_cases {c : Instr} {s t : State} (working : isWorking c) (request : requestOf c = none)
    (h : exec c s = .next t) : t = s ∨ Event s c t := by
  cases c with
  | powerOn | resetNAssert | resetNRelease | uptimeTick => exact working.elim
  | openSession | closeSession | renew | status | acquire | release | convert | cancel | watch | query | arrive | setLink
    | setWindow | setGroup | setFloor | start | restart | profile | evict => cases request
  | leaseDeadlineExpiry l =>
    refine (outcome_ite h).imp_right fun ⟨due, next⟩ => ?_
    obtain ⟨high, d, armed, reached⟩ := (expires_iff s _).1 due
    rw [next]
    exact .lease l d armed reached high
  | lockWaitDeadlineExpiry i =>
    refine (outcome_ite h).imp_right fun ⟨due, next⟩ => ?_
    rw [next]
    exact .lockWait i (Bool.and_eq_true_iff.1 due).1
  | convertWaitDeadlineExpiry i =>
    refine (outcome_ite h).imp_right fun ⟨due, next⟩ => ?_
    rw [next]
    exact .convertWait i (Bool.and_eq_true_iff.1 due).1
  | watchWaitDeadlineExpiry i =>
    refine (outcome_ite h).imp_right fun ⟨due, next⟩ => ?_
    rw [next]
    exact .watchWait i (Bool.and_eq_true_iff.1 due).1
  | holdDeadlineExpiry i =>
    refine (outcome_ite h).imp_right fun ⟨due, next⟩ => ?_
    obtain ⟨-, d, armed, -⟩ := (expires_iff s _).1 due
    rw [next]
    exact .hold i d armed
  | arrivalDeadlineExpiry g l =>
    change execArrivalDeadlineExpiry g l s = .next t at h
    unfold execArrivalDeadlineExpiry at h
    split at h
    · rename_i a found
      refine (outcome_ite h).imp_right fun ⟨_, next⟩ => ?_
      obtain rfl : a.link = l := of_decide_eq_true (List.find?_some found :)
      rw [next]
      exact .arrival g a (List.mem_of_find?_eq_some found)
    · exact .inl (Host.Outcome.next.inj h).symm
  | gapTimerExpiry l =>
    refine (outcome_ite h).imp_right fun ⟨works, next⟩ => ?_
    rw [next]
    exact .gap l works
  | characterReceivedWhole l v =>
    refine (outcome_ite h).imp_right fun ⟨works, next⟩ => ?_
    rw [next]
    exact .character _ l v works (.inl rfl)
  | lengthFault l v =>
    refine (outcome_ite h).imp_right fun ⟨works, next⟩ => ?_
    rw [next]
    exact .character _ l v (Bool.and_eq_true_iff.1 (Bool.and_eq_true_iff.1 works).1).1 (.inr (.inl rfl))
  | frameReceived l v =>
    refine (outcome_ite h).imp_right fun ⟨works, next⟩ => ?_
    rw [next]
    exact .character _ l v (Bool.and_eq_true_iff.1 works).1 (.inr (.inr rfl))
  | stopBitFault l v =>
    refine (outcome_ite h).imp_right fun ⟨works, next⟩ => ?_
    rw [next]
    exact .stopBit l v works
  | breakEnd l =>
    refine (outcome_ite h).imp_right fun ⟨works, next⟩ => ?_
    rw [next]
    exact .breakEnd l works
  | frameTransmitStart l =>
    change execFrameTransmitStart l s = .next t at h
    unfold execFrameTransmitStart at h
    split at h
    · rename_i e rest head
      refine (outcome_ite h).imp_right fun ⟨_, next⟩ => ?_
      rw [next]
      exact .transmitStart l e rest head
    · exact .inl (Host.Outcome.next.inj h).symm
  | entryTransmitted l =>
    refine (outcome_ite h).imp_right fun ⟨_, next⟩ => ?_
    rw [next]
    exact .transmitted l
  | startEdge l =>
    refine (outcome_ite h).imp_right fun ⟨_, next⟩ => ?_
    rw [next]
    exact .startEdge l
  | unknownKindFrame l kind tag body =>
    refine (execUnknownKindFrame_cases h).imp_right fun ⟨u, taken, _, next⟩ => ?_
    rw [next]
    exact .unknownKind l kind tag body u taken

/-! ### What every step keeps -/

/-- What every operation of a fold keeps, the fold keeps. -/
theorem foldl_keeps {α : Type} {P : State → Prop} (f : State → α → State) (step : ∀ t a, P t → P (f t a)) (list : List α)
    {s : State} (h : P s) : P (list.foldl f s) := by
  induction list generalizing s with
  | nil => exact h
  | cons a rest ih => exact ih (step s a h)

/-- What each expiry of an overdue deadline keeps, delivering them all keeps. -/
theorem deliverOverdue_keeps {P : State → Prop} (later : Instant)
    (lease : ∀ t l, overdue later (t.session l).leaseDeadline = true → P t → P (lapse l .lapsed t))
    (wait : ∀ t i, overdue later (t.record i).state.waitDeadline = true → P t → P (expireWait i t))
    (hold : ∀ t i, overdue later (t.record i).state.holdDeadline = true → P t → P (expireHold i t))
    (arrival : ∀ t g a, a ∈ (t.group g).arrivals → overdue later a.due = true → P t → P (expireArrival g a t))
    {s : State} (h : P s) : P (deliverOverdue later s) := by
  unfold deliverOverdue
  have leases : P (deliverLeases later s) := foldl_keeps _ (fun t l ht => by
    split
    · rename_i late; exact lease t l late ht
    · exact ht) _ h
  have waits : P (deliverWaits later (deliverLeases later s)) := foldl_keeps _ (fun t i ht => by
    split
    · rename_i late; exact wait t i late ht
    · exact ht) _ leases
  have holds : P (deliverHolds later (deliverWaits later (deliverLeases later s))) := foldl_keeps _ (fun t i ht => by
    split
    · rename_i late; exact hold t i late ht
    · exact ht) _ waits
  exact foldl_keeps _ (fun t g ht => by
    split
    · rename_i a found
      exact arrival t g a (List.mem_of_find?_eq_some found) (List.find?_some found :) ht
    · exact ht) _ holds

/-- A predicate that every event, request, reset and passing of time keeps, beside one that every step keeps. -/
structure KeptBeside (Q P : State → Prop) : Prop where
  event : ∀ {s c t}, Event s c t → Q s → Q t → P s → P t
  refused : ∀ {s l f t} (tag : Byte) (r : Reason) (d : Byte), TakesFrame l f s t → Q s → P s → P (refuse l tag r d t)
  accepted : ∀ {s l tag body k m adopts t v}, TakesFrame l { kind := k.code, tag := tag, body := body } s t →
    PassesChecks k l tag body t → Accepted l tag body t k m adopts v → Q s →
    Q (queueFree l { tag := tag, msg := m, adopts := adopts } v) → P s →
    P (queueFree l { tag := tag, msg := m, adopts := adopts } v)
  tick : ∀ {s}, s.resetHeld = false → Q s → P s →
    P ((deliverOverdue s.nextMillisecond s).atInstant s.nextMillisecond)
  period : ∀ {s}, s.resetHeld = false → Q s → P s →
    P ((linePeriod (deliverOverdue s.nextPeriod s)).atInstant s.nextPeriod)
  queue : ∀ {s} (waiting : List Instr), P s → P { s with pending := waiting }
  power : ∀ {s : State} (straps : Straps), P (latchStraps straps { State.reset with pending := s.pending })
  falling : ∀ {s}, P s → P (resetValues s)
  rising : ∀ {s} (straps : Straps), s.resetHeld = true → P s → P (latchStraps straps { s with resetHeld := false })

theorem KeptBeside.exec {Q P : State → Prop} (side : Kept Q) (kept : KeptBeside Q P) {c : Instr} {s t : State}
    (h : exec c s = .next t) (holds : Q s) (start : P s) : P t := by
  have after : Q t := side.exec h holds
  cases request : requestOf c with
  | some r =>
    obtain ⟨k, l, tag, body⟩ := r
    rcases exec_request_cases request h with rfl | ⟨u, taken, ⟨r, d, rfl⟩ | ⟨pass, m, adopts, v, accepted, rfl⟩⟩
    · exact start
    · exact kept.refused tag r d taken holds start
    · exact kept.accepted taken pass accepted holds after start
  | none =>
    by_cases working : isWorking c
    · rcases exec_event_cases working request h with rfl | event
      · exact start
      · exact kept.event event holds after start
    cases c with
    | powerOn m a => rw [← Host.Outcome.next.inj h]; exact kept.power _
    | resetNAssert =>
      change execResetNAssert s = .next t at h
      unfold execResetNAssert at h
      split at h
      · rw [← Host.Outcome.next.inj h]; exact start
      · rw [← Host.Outcome.next.inj h]; exact kept.falling start
    | resetNRelease m a =>
      rcases outcome_ite h with rfl | ⟨held, rfl⟩
      · exact start
      · exact kept.rising _ held start
    | uptimeTick =>
      change execUptimeTick s = .next t at h
      unfold execUptimeTick at h
      split at h
      · rw [← Host.Outcome.next.inj h]; exact start
      · rename_i high
        rw [← Host.Outcome.next.inj h]
        exact kept.tick (Bool.eq_false_iff.2 high) holds start
    | _ => exact absurd trivial working

/-- And every step, the idle step included. -/
theorem KeptBeside.step {Q P : State → Prop} (side : Kept Q) (kept : KeptBeside Q P) {s t : State}
    (h : step s = .next t) (holds : Q s) (start : P s) : P t := by
  unfold Machine.step at h
  split at h
  · rw [← Host.Outcome.next.inj h]
    unfold clkinPeriod
    split
    · exact start
    · rename_i high
      exact kept.period (Bool.eq_false_iff.2 high) holds start
  · exact kept.exec side h (side.queue _ holds) (kept.queue _ start)

end Sys2Proof.Machine
end

section
/-! PROOFS. R50 of every step, continued: the requests that claim, and the events that scan. -/

namespace Sys2Proof.Machine

open Sys2Proof.Safety

/-! ### Requests that claim -/

/-- A record that does not wait is rewritten to claim no less; what it then waits for, if anything, is blocked. -/
theorem nothingUnblocked_rewrite {s t : State} (i : RecNo) (x : RecState)
    (record : ∀ j, (t.record j).state = if i = j then x else (s.record j).state)
    (idle : (s.record i).state.isWaiting = false)
    (grows : ∀ c n, (s.record i).state.holding = some (c, n) → ∃ k, x.holding = some (c, k) ∧ (n = .exclusive → k = .exclusive))
    (tokens : t.tokensSpent = false → s.tokensSpent = false)
    (list : t.waitList = s.waitList ∨ t.waitList = s.waitList ++ [i])
    (watching : ∀ o b g d, x = .watching o b g d → s.heldOver b = true)
    (converting : ∀ o b k g d h, x = .converting o b k g d h → s.otherHeldOver i b = true)
    (waiting : ∀ o b m g d h, x = .waiting o b m g d h → t.waitList = s.waitList ++ [i] ∧
      (s.heldAgainst b m = true ∨ s.earlierAgainst s.waitList b m = true))
    (lists : ListsMatch s) (before : NothingUnblocked s) : NothingUnblocked t := by
  have grow : HoldingsGrow s t := fun j c n holding => by
    rw [record]
    split
    · rename_i same; subst same; exact grows c n holding
    · exact ⟨n, holding, id⟩
  have ⟨_, _, waits, _⟩ := lists
  have unlisted : i ∉ s.waitList := fun listed => by rw [waits, idle] at listed; cases listed
  have still {earlier : List RecNo} {b : Block} {m : Mode} (among : ∀ k ∈ earlier, k ∈ s.waitList)
      (h : s.heldAgainst b m = true ∨ s.earlierAgainst earlier b m = true) :
      t.heldAgainst b m = true ∨ t.earlierAgainst earlier b m = true := by
    refine h.imp grow.heldAgainst fun early => ?_
    obtain ⟨k, early, against⟩ := (earlierAgainst_iff ..).1 early
    have apart : i ≠ k := fun same => unlisted (same ▸ among k early)
    refine (earlierAgainst_iff ..).2 ⟨k, early, ?_⟩
    rw [waitingConflicts_iff] at against ⊢
    rw [record, if_neg apart]
    exact against
  obtain ⟨watches, rest⟩ := before
  refine ⟨fun j o b g d state => ?_, fun unspent => ?_⟩
  · rw [record] at state
    split at state
    · exact grow.heldOver (watching o b g d state)
    · exact grow.heldOver (watches j o b g d state)
  obtain ⟨converters, waiters⟩ := rest (tokens unspent)
  refine ⟨fun j o b k g d h state => ?_, fun earlier j after o b m g d h order state => ?_⟩
  · rw [record] at state
    split at state
    · rename_i same; subst same; exact grow.otherHeldOver (converting o b k g d h state)
    · exact grow.otherHeldOver (converters j o b k g d h state)
  rw [record] at state
  split at state
  · rename_i same
    subst same
    obtain ⟨tail, blocked⟩ := waiting o b m g d h state
    rw [tail] at order
    have cut : s.waitList = earlier := by
      obtain ⟨more, rfl, last⟩ | ⟨more, e, last⟩ := List.append_eq_append_iff.1 order
      · cases more with
        | nil => simp
        | cons y ys => simp at last
      · cases more with
        | nil => simpa using e
        | cons y ys =>
          obtain rfl := (List.cons.inj last).1
          exact absurd (by simp [e]) unlisted
    rw [← cut]
    exact still (fun _ => id) blocked
  · rename_i other
    have listed : ∃ rest, s.waitList = earlier ++ j :: rest := by
      rcases list with same | tail
      · exact ⟨after, same ▸ order⟩
      · rw [tail] at order
        rcases List.eq_nil_or_concat after with rfl | ⟨more, last, rfl⟩
        · have := List.append_inj_right' order (by simp)
          simp at this
          exact absurd this other
        · rw [List.concat_eq_append, ← List.cons_append, ← List.append_assoc] at order
          exact ⟨more, List.append_inj_left' order rfl⟩
    obtain ⟨rest, split⟩ := listed
    exact still (fun k early => by rw [split]; exact List.mem_append_left _ early)
      (waiters earlier j rest o b m g d h split state)

/-- A FREE record has neither a holding nor a place in the wait list. -/
theorem holding_of_free {x : RecState} (free : x = .free) {P : Prop} (c : Block) (n : Mode) (h : x.holding = some (c, n)) :
    P := by
  rw [free] at h; cases h

/-- A claim that conflicts with some record is blocked by a holding or by a record of the wait list (R35). -/
theorem blocked_of_claimConflicts {s : State} (lists : ListsMatch s) {b : Block} {m : Mode}
    (h : s.claimConflicts b m = true) : s.heldAgainst b m = true ∨ s.earlierAgainst s.waitList b m = true := by
  have ⟨_, _, waits, _⟩ := lists
  obtain ⟨j, conflict⟩ := (claimConflicts_iff s b m).1 h
  by_cases waiting : (s.record j).state.isWaiting = true
  · exact .inr ((earlierAgainst_iff ..).2 ⟨j, (waits j).2 waiting, (waitingConflicts_iff ..).2
      ⟨waiting, (blocks_iff ..).2 conflict⟩⟩)
  · obtain ⟨c, n, claim, meets, mode⟩ := conflict
    refine .inl ((heldAgainst_iff_holdingConflicts ..).2 ⟨j, c, n, ?_, meets, mode⟩)
    cases state : (s.record j).state <;> simp [state, RecState.claim, RecState.holding, RecState.isWaiting] at *
    all_goals exact claim

theorem nothingUnblocked_of_pool {s t : State} (same : t.pool = s.pool) (h : NothingUnblocked s) : NothingUnblocked t := by
  obtain ⟨records, waitList, -, tokens⟩ := (s.pool_eq_iff t).1 same
  unfold NothingUnblocked State.heldOver State.otherHeldOver State.heldAgainst State.earlierAgainst State.tokensSpent
    State.record
  rw [records, waitList, tokens]
  exact h

/-- An empty pool holds nothing that waits. -/
theorem nothingUnblocked_empty {t : State} (empty : ∀ i, (t.record i).state = .free) : NothingUnblocked t := by
  refine ⟨fun i o b g d state => ?_, fun _ => ⟨fun i o b k g d h state => ?_, fun before i after o b m g d h _ state => ?_⟩⟩
  all_goals rw [empty] at state; cases state

/-- What every event that scans leaves. -/
theorem nothingUnblocked_of_scan {s u t : State} (moves : Moves s u) (pool : t.pool = (grantScan u).pool)
    (lists : ListsMatch s) : NothingUnblocked t :=
  (scanSettled_of_scan moves pool lists).2

/-- A failure end scans (R74). -/
theorem scan_failureEnd (l : LinkNo) (s : State) : ∃ u, Works s u ∧ (failureEnd l s).pool = (grantScan u).pool :=
  ⟨freeOwned freeRecord l s, works_freeOwned _ works_freeRecord l s, pool_depart ..⟩

/-- So does a lapse. -/
theorem scan_lapse (l : LinkNo) (cause : EndCause) (s : State) (is_open : (s.session l).isOpen = true) :
    ∃ u, Moves s u ∧ (lapse l cause s).pool = (grantScan u).pool := by
  obtain ⟨u, works, scanned⟩ := scan_failureEnd l
    (queueReserved l 0 (.ended cause) (flush l (dropTags l (putSessState l .lapsed s))))
  refine ⟨u, (Move.lapse s l is_open).moves.trans (Works.moves ?_), scanned⟩
  exact (((works_dropTags l _).trans (works_flush l _)).trans (works_queueReserved l 0 _ _)).trans works

/-- Every request that is accepted leaves R50. -/
theorem nothingUnblocked_accepted {l : LinkNo} {tag : Byte} {body : List Byte} {s v : State} {k : ReqKind} {m : Message}
    {adopts : Bool} (accepted : Accepted l tag body s k m adopts v) (lists : ListsMatch s) (before : NothingUnblocked s) :
    NothingUnblocked v := by
  have same (pool : v.pool = s.pool) : NothingUnblocked v := nothingUnblocked_of_pool pool before
  cases accepted with
  | opens | closesLapsed | renews | linkStatus | partStatus | findsFree | queries | setsWindow | setsGroup | starts
  | reads => exact same rfl
  | closesOpen is_open =>
    have scanned : (closeSequence l s).pool =
        (grantScan (freeOwned freeHolding l (retest l (putSessState l .closed (tagsCancelled l s))))).pool :=
      pool_unreserve ..
    refine nothingUnblocked_of_scan ?_ scanned lists
    exact ((works_tagsCancelled l s).moves.trans (Move.close _ l).moves).trans
      (Works.moves ((works_retest l _).trans (works_freeOwned _ works_freeHolding l _)))
  | holds q m w i fields admits free quota unspent open_ =>
    refine nothingUnblocked_of_pool (pool_reserveHold ..) ?_
    obtain ⟨isFree, -⟩ := (lowestFree_eq_some_iff s i).1 free
    exact nothingUnblocked_rewrite i _ (fun j => state_putState s i j _) (by rw [isFree]; rfl)
      (fun c n => holding_of_free isFree c n) (fun _ => unspent) (.inl rfl) nofun nofun nofun lists before
  | waits q m w i fields admits free quota room blocked =>
    refine nothingUnblocked_of_pool (pool_reserveHold ..) ?_
    obtain ⟨isFree, -⟩ := (lowestFree_eq_some_iff s i).1 free
    refine nothingUnblocked_rewrite i _ (fun j => state_putState s i j _) (by rw [isFree]; rfl)
      (fun c n => holding_of_free isFree c n) id (.inr rfl) nofun nofun (fun _ _ _ _ _ _ e => ?_) lists before
    cases e
    exact ⟨rfl, blocked_of_claimConflicts lists blocked⟩
  | watches q w i fields admits free quota room held =>
    obtain ⟨isFree, -⟩ := (lowestFree_eq_some_iff s i).1 free
    refine nothingUnblocked_rewrite i _ (fun j => state_putState s i j _) (by rw [isFree]; rfl)
      (fun c n => holding_of_free isFree c n) id (.inl rfl) (fun _ _ _ _ e => ?_) nofun nofun lists before
    cases e
    exact held
  | releases i token named holding =>
    exact nothingUnblocked_of_scan (Works.moves ((works_concludeConversion i s).trans (works_freeHolding i _))) rfl lists
  | downgrades i o b token hold named mode state =>
    exact nothingUnblocked_of_scan (Work.share s i o b token hold (.inl ⟨_, state⟩)).works.moves rfl lists
  | upgrades i o b token hold named mode state alone unspent =>
    refine nothingUnblocked_rewrite i _ (fun j => state_putState s i j _) (by rw [state]; rfl) (fun c n own => ?_)
      (fun _ => unspent) (.inl rfl) nofun nofun nofun lists before
    rw [state] at own
    obtain ⟨rfl, -⟩ := Prod.mk.inj (Option.some.inj own)
    exact ⟨.exclusive, rfl, fun _ => rfl⟩
  | converts i o b token hold named mode state others settled =>
    refine nothingUnblocked_rewrite i _ (fun j => state_putState s i j _) (by rw [state]; rfl) (fun c n own => ?_) id
      (.inl rfl) nofun (fun _ _ _ _ _ _ e => ?_) nofun lists before
    · rw [state] at own
      obtain ⟨rfl, -⟩ := Prod.mk.inj (Option.some.inj own)
      exact ⟨.exclusive, rfl, fun _ => rfl⟩
    · cases e
      exact others
  | cancels x found =>
    cases ref : x.ref with
    | lockWait | convert | watch =>
      exact nothingUnblocked_of_scan (works_cancelEntry l x s).moves (by simp only [scanAfterCancel]) lists
    | arrival g =>
      refine nothingUnblocked_of_pool ?_ before
      simp only [scanAfterCancel, cancelEntry, ref]
      rfl
  | completes g => exact same (pool_passRound ..)
  | arrives => exact same rfl
  | setsLink q n => exact same (pool_writeLink ..)
  | setsFloor =>
    obtain ⟨watches, rest⟩ := before
    refine ⟨watches, fun unspent => rest (Bool.eq_false_iff.2 fun spent => ?_)⟩
    have maximum : (s.tokens : Word).toNat = 4294967295 := congrArg BitVec.toNat (of_decide_eq_true spent)
    have counter := floored_toNat s.tokens body
    have range := (floored s.tokens body).isLt
    refine Bool.false_ne_true (unspent.symm.trans (decide_eq_true (BitVec.eq_of_toNat_eq ?_)))
    show (floored s.tokens body).toNat = 4294967295
    omega
  | restarts => exact nothingUnblocked_empty (state_cleared _)
  | evicts n target is_open =>
    obtain ⟨u, moves, scanned⟩ := scan_lapse n .evicted s is_open
    exact nothingUnblocked_of_scan moves scanned lists

end Sys2Proof.Machine
end

section
/-! PROOFS. R50 of every step, concluded: the expiries, the breaks and the passing of time. -/

namespace Sys2Proof.Machine

open Sys2Proof.Safety

theorem scanSettled_lapse (l : LinkNo) (cause : EndCause) {s : State} (is_open : (s.session l).isOpen = true)
    (h : ScanSettled s) : ScanSettled (lapse l cause s) := by
  obtain ⟨u, moves, scanned⟩ := scan_lapse l cause s is_open
  exact scanSettled_of_scan moves scanned h.1

theorem scanSettled_expireWait (i : RecNo) {s : State} (h : ScanSettled s) : ScanSettled (expireWait i s) := by
  unfold expireWait
  split
  · exact scanSettled_of_scan (works_endLockWait i _ s).moves rfl h.1
  · exact scanSettled_of_scan (works_endConversion i _ s).moves rfl h.1
  · exact scanSettled_of_scan (works_endWatch i _ s).moves rfl h.1
  · exact h
  · exact h

theorem scanSettled_expireHold (i : RecNo) {s : State} (h : ScanSettled s) : ScanSettled (expireHold i s) :=
  scanSettled_of_scan (Works.moves ((works_concludeConversion i s).trans (works_revoke i _))) rfl h.1

theorem scanSettled_expireArrival (g : GroupNo) (a : Arrival) {s : State} (h : ScanSettled s) :
    ScanSettled (expireArrival g a s) :=
  scanSettled_of_pool (pool_expireArrival g a s) h

theorem scanSettled_deliverOverdue (later : Instant) {s : State} (h : ScanSettled s) :
    ScanSettled (deliverOverdue later s) := by
  refine deliverOverdue_keeps (P := ScanSettled) later (fun t l late ht => ?_) (fun _ i _ => scanSettled_expireWait i)
    (fun _ i _ => scanSettled_expireHold i) (fun _ g a _ _ => scanSettled_expireArrival g a) h
  obtain ⟨d, armed, -⟩ := overdue_armed late
  exact scanSettled_lapse l .lapsed (isOpen_of_leaseDeadline armed) ht

/-- The end of a break ends an OPEN session with a scan, and any other without (R117). -/
theorem scanSettled_sessionAtBreak (l : LinkNo) {s : State} (h : ScanSettled s) : ScanSettled (sessionAtBreak l s) := by
  unfold sessionAtBreak
  split
  · obtain ⟨u, works, scanned⟩ := scan_failureEnd l (dropTags l (putSessState l .closed s))
    exact scanSettled_of_scan ((Move.close s l).moves.trans (Works.moves ((works_dropTags l _).trans works))) scanned h.1
  · exact h
  · exact h

theorem scanSettled_event {c : Instr} {s t : State} (event : Event s c t) (h : ScanSettled s) : ScanSettled t := by
  have same (pool : t.pool = s.pool) : ScanSettled t := scanSettled_of_pool pool h
  cases event with
  | lease l d armed => exact scanSettled_lapse l .lapsed (isOpen_of_leaseDeadline armed) h
  | lockWait i | convertWait i | watchWait i => exact scanSettled_expireWait i h
  | hold i => exact scanSettled_expireHold i h
  | arrival g a => exact scanSettled_expireArrival g a h
  | gap l => exact same ((pool_runGapTimer ..).trans (pool_lineReturned l s))
  | character _ l v => exact same (pool_endCharacter ..)
  | stopBit l v => exact same (pool_endCharacter ..)
  | breakEnd l => exact scanSettled_sessionAtBreak l (scanSettled_of_pool (pool_clearLink l s) h)
  | transmitStart => exact same rfl
  | transmitted l => exact same (pool_runTransmitter ..)
  | startEdge l => exact same (pool_lineReturned l s)
  | unknownKind l kind tag body u taken => exact scanSettled_of_pool (pool_refuse ..) (scanSettled_of_pool (pool_takesFrame taken) h)

theorem scanSettled_atInstant (now : Instant) {s : State} (h : ScanSettled s) : ScanSettled (s.atInstant now) := h

/-- R50 is kept by every event, request, reset and passing of time. -/
theorem keptBeside_scanSettled : KeptBeside ListsMatch ScanSettled where
  event event _ _ h := scanSettled_event event h
  refused _ _ _ taken _ h := scanSettled_of_pool (pool_refuse ..) (scanSettled_of_pool (pool_takesFrame taken) h)
  accepted taken _ accepted _ after h := by
    have ⟨lists, settled⟩ := scanSettled_of_pool (pool_takesFrame taken) h
    exact ⟨after, nothingUnblocked_of_pool (pool_queueFree ..) (nothingUnblocked_accepted accepted lists settled)⟩
  tick _ _ h := scanSettled_atInstant _ (scanSettled_deliverOverdue _ h)
  period _ _ h :=
    scanSettled_atInstant _ (scanSettled_of_pool (pool_linePeriod _) (scanSettled_deliverOverdue _ h))
  queue _ h := h
  power straps := by
    have free (i : RecNo) : (State.reset.record i).state = .free := congrArg Record.state (record_reset i)
    exact scanSettled_of_pool (pool_latchStraps straps _)
      ⟨(lists_reset free rfl rfl rfl rfl rfl).1, nothingUnblocked_empty free⟩
  falling _ := ⟨(lists_reset (state_resetValues _) rfl rfl rfl rfl rfl).1, nothingUnblocked_empty (state_resetValues _)⟩
  rising straps _ h := scanSettled_of_pool (pool_latchStraps straps _) h

/-- Settles O59: an event that takes a claim away ends with a scan, after which nothing is unblocked; every other event takes
no claim away, and what it makes wait is blocked. -/
theorem stepKeepsScanSettled : Obligations.StepKeepsScanSettled :=
  fun _ _ h next => keptBeside_scanSettled.step kept_listsMatch next h.1 h

end Sys2Proof.Machine
end

section
/-! PROOFS. Deadlines (Chapter 8): what arms them, the arithmetic of their due points across the wrap of the uptime, and that no
event leaves one past its latest moment (R126, R127). -/

namespace Sys2Proof.Machine

open Sys2Proof.Safety

/-! ### Due points -/

/-- A deadline armed now at an interval that the spec can give. -/
def Fresh (s : State) (d : Instant) : Prop := ∃ n, n ≤ 65535 ∧ d = s.due n

/-- The instant is the end of the current millisecond or of the current CLKIN period within it. -/
def Soon (s : State) (later : Instant) : Prop :=
  later.ms = s.uptime + 1 ∧ later.sub.val = 0 ∨ later.ms = s.uptime ∧ later.sub.val = s.clkin.val + 1

theorem soon_nextMillisecond (s : State) : Soon s s.nextMillisecond := .inl ⟨rfl, rfl⟩

theorem soon_nextPeriod (s : State) : Soon s s.nextPeriod := by
  unfold State.nextPeriod Config.clkinPerMs
  have range := s.clkin.isLt
  split
  · exact soon_nextMillisecond s
  · refine .inr ⟨rfl, ?_⟩
    show (s.clkin + 1).val = _
    rw [Fin.val_add_one_of_lt (Fin.lt_def.2 _)]
    show s.clkin.val < 18431
    omega

theorem Word.one_toNat : (1 : Word).toNat = 1 := rfl

theorem inTime_of_fresh {s : State} {d : Instant} (fresh : Fresh s d) : InTime s d := by
  obtain ⟨n, range, rfl⟩ := fresh
  have ahead : s.uptime + BitVec.ofNat 32 n + 1 - s.uptime = BitVec.ofNat 32 (n + 1) := by
    apply BitVec.eq_of_toNat_eq
    have := s.uptime.isLt
    simp only [BitVec.toNat_sub, BitVec.toNat_add, BitVec.toNat_ofNat, Word.one_toNat]
    omega
  refine ⟨?_, fun now => ?_⟩
  · show (s.uptime + BitVec.ofNat 32 n + 1 - s.uptime).toNat ≤ 65536
    rw [ahead, BitVec.toNat_ofNat]
    omega
  · have zero : BitVec.ofNat 32 (n + 1) = 0 := by
      rw [← ahead, ← show s.uptime = s.uptime + BitVec.ofNat 32 n + 1 from now, BitVec.sub_self]
      rfl
    have : (n + 1) % 2 ^ 32 = 0 := (BitVec.toNat_ofNat (n + 1) 32).symm.trans (congrArg BitVec.toNat zero)
    omega

/-- What has just been armed can wait. -/
theorem Soon.not_passed {s : State} {later d : Instant} (soon : Soon s later) (fresh : Fresh s d) :
    ¬ LatestPassed later d := by
  obtain ⟨n, range, rfl⟩ := fresh
  rintro ⟨within, last⟩
  have := s.uptime.isLt
  simp only [State.due, BitVec.toNat_sub, BitVec.toNat_add, BitVec.toNat_ofNat, Word.one_toNat] at within
  rcases soon with ⟨ms, sub⟩ | ⟨ms, sub⟩
  · rw [ms, BitVec.toNat_add, Word.one_toNat] at within
    have zero : n = 0 := by omega
    have := last (by rw [ms, zero, State.due, BitVec.add_zero])
    rw [Fin.lt_def, sub] at this
    omega
  · rw [ms] at within
    omega

/-- An expiry that can wait no longer has fallen due. -/
theorem Soon.reached {s : State} {later d : Instant} (soon : Soon s later) (inTime : InTime s d)
    (passed : LatestPassed later d) : s.reached d = true := by
  obtain ⟨ahead, now⟩ := inTime
  obtain ⟨within, last⟩ := passed
  have due : d.ms + 1 = s.uptime := by
    rcases soon with ⟨ms, sub⟩ | ⟨ms, sub⟩
    · by_cases next : d.ms + 1 = s.uptime + 1
      · have := last (ms.trans next.symm)
        rw [Fin.lt_def, sub] at this
        omega
      · rw [ms] at within
        bv_omega
    · rw [ms] at within
      bv_omega
  have past : s.uptime - d.ms = 1 := by bv_omega
  unfold State.reached
  simp [past]

/-- What can wait is in time when the instant has come. -/
theorem Soon.inTime {s : State} {later d : Instant} (soon : Soon s later) (inTime : InTime s d)
    (waits : ¬ LatestPassed later d) : InTime (s.atInstant later) d := by
  obtain ⟨ahead, now⟩ := inTime
  show (d.ms + 1 - later.ms).toNat ≤ 65536 ∧ (later.ms = d.ms + 1 → later.sub ≤ d.sub)
  unfold LatestPassed at waits
  rw [not_and_or] at waits
  rcases soon with ⟨ms, sub⟩ | ⟨ms, sub⟩
  · refine ⟨?_, fun _ => by rw [Fin.le_def, sub]; exact Nat.zero_le _⟩
    have future : d.ms + 1 ≠ s.uptime := fun past => by
      rw [ms, past] at waits
      rcases waits with far | last
      · exact far (by bv_omega)
      · exact last fun same => absurd same (by bv_omega)
    rw [ms]
    bv_omega
  · refine ⟨by rw [ms]; exact ahead, fun same => ?_⟩
    rw [same, BitVec.sub_self] at waits
    rcases waits with far | last
    · exact absurd (by decide) far
    · rw [Fin.le_def]
      by_contra less
      exact last fun _ => Fin.lt_def.2 (by omega)

/-! ### What events arm -/

/-- The hold limit that a WAITING record carries (R25). -/
def RecState.limit : RecState → Option Nat
  | .waiting _ _ _ _ _ h => h
  | .free | .held .. | .converting .. | .watching .. => none

/-- Every interval that can still be armed is one that the spec can give. -/
def Bounded (s : State) : Prop :=
  (∀ l, (s.settings l).lease ≤ 65535) ∧ ∀ i n, (s.record i).state.limit = some n → n ≤ 65535

/-- No time has passed, and every deadline that is armed was armed at the same place or has just been. -/
structure Rearmed (s t : State) : Prop where
  uptime : t.uptime = s.uptime
  clkin : t.clkin = s.clkin
  leases : ∀ l d, (t.session l).leaseDeadline = some d → (s.session l).leaseDeadline = some d ∨ Fresh s d
  waits : ∀ i d, (t.record i).state.waitDeadline = some d → (s.record i).state.waitDeadline = some d ∨ Fresh s d
  holds : ∀ i d, (t.record i).state.holdDeadline = some d → (s.record i).state.holdDeadline = some d ∨ Fresh s d
  arrivals : ∀ g, ∀ a ∈ (t.group g).arrivals, a ∈ (s.group g).arrivals ∨ ∀ d, a.due = some d → Fresh s d

theorem Rearmed.refl (s : State) : Rearmed s s :=
  ⟨rfl, rfl, fun _ _ => .inl, fun _ _ => .inl, fun _ _ => .inl, fun _ _ => .inl⟩

/-- While no time passes, what has just been armed is fresh. -/
theorem Rearmed.fresh {s t : State} (h : Rearmed s t) {d : Instant} (fresh : Fresh t d) : Fresh s d := by
  obtain ⟨n, range, rfl⟩ := fresh
  exact ⟨n, range, by rw [State.due, State.due, h.uptime, h.clkin]⟩

theorem Rearmed.trans {s t u : State} (h : Rearmed s t) (k : Rearmed t u) : Rearmed s u where
  uptime := k.uptime.trans h.uptime
  clkin := k.clkin.trans h.clkin
  leases l d armed := (k.leases l d armed).elim (h.leases l d) fun fresh => .inr (h.fresh fresh)
  waits i d armed := (k.waits i d armed).elim (h.waits i d) fun fresh => .inr (h.fresh fresh)
  holds i d armed := (k.holds i d armed).elim (h.holds i d) fun fresh => .inr (h.fresh fresh)
  arrivals g a listed := (k.arrivals g a listed).elim (h.arrivals g a) fun fresh => .inr fun d due => h.fresh (fresh d due)

/-- The records, sessions and groups are as they were. -/
theorem rearmed_of_same {s t : State} (uptime : t.uptime = s.uptime) (clkin : t.clkin = s.clkin)
    (records : t.records = s.records) (leases : ∀ l, (t.session l).state = (s.session l).state)
    (groups : t.groups = s.groups) : Rearmed s t where
  uptime := uptime
  clkin := clkin
  leases l d armed := by
    rw [Session.leaseDeadline, leases] at armed
    exact .inl armed
  waits i d armed := by
    rw [State.record, records] at armed
    exact .inl armed
  holds i d armed := by
    rw [State.record, records] at armed
    exact .inl armed
  arrivals g a listed := by
    rw [State.group, groups] at listed
    exact .inl listed

/-- One record is rewritten, its deadlines kept, disarmed or armed now. -/
theorem rearmed_rewrite {s t : State} (i : RecNo) (x : RecState)
    (record : ∀ j, (t.record j).state = if i = j then x else (s.record j).state)
    (control : SameControl s t) (leases : ∀ l, (t.session l).state = (s.session l).state) (groups : t.groups = s.groups)
    (waits : ∀ d, x.waitDeadline = some d → (s.record i).state.waitDeadline = some d ∨ Fresh s d)
    (holds : ∀ d, x.holdDeadline = some d → (s.record i).state.holdDeadline = some d ∨ Fresh s d)
    (limits : ∀ n, x.limit = some n → (s.record i).state.limit = some n ∨ n ≤ 65535) (bounded : Bounded s) :
    Rearmed s t ∧ Bounded t := by
  obtain ⟨-, -, -, -, uptime, clkin, profile, -, -⟩ := control
  obtain ⟨lease, limit⟩ := bounded
  refine ⟨⟨uptime, clkin, fun l d armed => ?_, fun j d armed => ?_, fun j d armed => ?_, fun g a listed => ?_⟩,
    fun l => ?_, fun j n carried => ?_⟩
  · rw [Session.leaseDeadline, leases] at armed
    exact .inl armed
  · rw [record] at armed
    split at armed
    · rename_i same; subst same; exact waits d armed
    · exact .inl armed
  · rw [record] at armed
    split at armed
    · rename_i same; subst same; exact holds d armed
    · exact .inl armed
  · rw [State.group, groups] at listed
    exact .inl listed
  · rw [State.settings, profile]
    exact lease l
  · rw [record] at carried
    split at carried
    · rename_i same; subst same; exact (limits n carried).elim (limit i n) id
    · exact limit j n carried

/-- A wait deadline just armed is fresh (R128). -/
theorem fresh_waitDue {s : State} {wait : Nat} (range : wait ≤ 65535) {d : Instant} (armed : s.waitDue wait = some d) :
    Fresh s d := by
  unfold State.waitDue at armed
  split at armed
  · cases armed
  · exact ⟨wait, range, (Option.some.inj armed).symm⟩

/-- A hold deadline just armed is fresh (R25). -/
theorem fresh_armHold {s : State} {limit : Option Nat} (range : ∀ n, limit = some n → n ≤ 65535) {d : Instant}
    (armed : (s.armHold limit).map (·.due) = some d) : Fresh s d := by
  cases limit with
  | none => cases armed
  | some n => exact ⟨n, range n rfl, (Option.some.inj armed).symm⟩

theorem limit_range {hold n : Nat} (range : hold ≤ 65535) (limit : holdLimitOf hold = some n) : n ≤ 65535 := by
  unfold holdLimitOf at limit
  split at limit
  · cases limit
  · exact Option.some.inj limit ▸ range

/-- The hold deadline of a holding. -/
theorem holdDeadline_of_holding {x : RecState} {o : LinkNo} {b : Block} {token : Word} {hold : Option Hold}
    (holding : (∃ m, x = .held o b m token hold) ∨ ∃ g w, x = .converting o b token g w hold) :
    x.holdDeadline = hold.map (·.due) := by
  rcases holding with ⟨m, rfl⟩ | ⟨g, w, rfl⟩ <;> rfl

/-- The work of the blocks arms no deadline but from now. -/
theorem Work.rearmed {s t : State} (h : Work s t) (bounded : Bounded s) : Rearmed s t ∧ Bounded t := by
  obtain ⟨control, sessions, -⟩ := h.frame
  have ⟨lease, limits⟩ := bounded
  have hold {o b m token issued hold} (i : RecNo)
      (holding : (∃ n, (s.record i).state = .held o b n token hold) ∨ ∃ g w, (s.record i).state = .converting o b token g w hold)
      (d : Instant) (armed : (RecState.held o b m issued hold).holdDeadline = some d) :
      (s.record i).state.holdDeadline = some d ∨ Fresh s d :=
    .inl ((holdDeadline_of_holding holding).trans armed)
  cases h with
  | link | tags | floor => exact ⟨rearmed_of_same rfl rfl rfl sessions rfl, bounded⟩
  | depart g x fewer =>
    refine ⟨⟨rfl, rfl, fun _ _ => .inl, fun _ _ => .inl, fun _ _ => .inl, fun k a listed => ?_⟩, bounded⟩
    rw [State.group_putGroup] at listed
    split at listed
    · rename_i same; subst same; exact .inl (fewer a listed)
    · exact .inl listed
  | arrive g l tag wait _ range =>
    refine ⟨⟨rfl, rfl, fun _ _ => .inl, fun _ _ => .inl, fun _ _ => .inl, fun k a listed => ?_⟩, bounded⟩
    rw [State.group_putGroup] at listed
    split at listed
    · rename_i same
      subst same
      rcases List.mem_append.1 listed with old | new
      · exact .inl old
      · rw [List.mem_singleton.1 new]
        exact .inr fun d => fresh_waitDue range
    · exact .inl listed
  | free i =>
    obtain ⟨-, -, -, -, groups⟩ := freeRecord_frame i s
    exact rearmed_rewrite i .free (fun j => state_freeRecord i j s) control sessions groups nofun nofun nofun bounded
  | share i o b token limit holding =>
    exact rearmed_rewrite i _ (fun j => state_putState s i j _) control sessions rfl nofun (hold i holding) nofun bounded
  | exclude i o b token limit holding =>
    exact rearmed_rewrite i _ (fun j => state_putState s i j _) control sessions rfl nofun (hold i holding) nofun bounded
  | convert i o b token tag wait limit state _ _ range =>
    exact rearmed_rewrite i _ (fun j => state_putState s i j _) control sessions rfl
      (fun d armed => .inr (fresh_waitDue range armed)) (hold (m := .shared) (issued := token) i (.inl ⟨_, state⟩)) nofun bounded
  | grant i o b m tag w limit state =>
    exact rearmed_rewrite i _ (fun j => state_putState s i j _) control sessions rfl nofun
      (fun d armed => .inr (fresh_armHold (fun n own => limits i n (by rw [state]; exact own)) armed)) nofun bounded
  | hold i l q w m limit _ _ _ _ _ _ _ range =>
    exact rearmed_rewrite i _ (fun j => state_putState s i j _) control sessions rfl nofun
      (fun d armed => .inr (fresh_armHold (fun n => limit_range range) armed)) nofun bounded
  | wait i l q w m tag wait limit _ _ _ _ _ _ _ range limitRange =>
    exact rearmed_rewrite i _ (fun j => state_putState s i j _) control sessions rfl
      (fun d armed => .inr (fresh_waitDue range armed)) nofun (fun n carried => .inr (limit_range limitRange carried)) bounded
  | watch i l q w tag wait _ _ _ _ _ _ _ range =>
    exact rearmed_rewrite i _ (fun j => state_putState s i j _) control sessions rfl
      (fun d armed => .inr (fresh_waitDue range armed)) nofun nofun bounded

theorem Works.rearmed {s t : State} (h : Works s t) (bounded : Bounded s) : Rearmed s t ∧ Bounded t := by
  induction h with
  | refl => exact ⟨.refl s, bounded⟩
  | tail _ w ih =>
    obtain ⟨before, bounded⟩ := ih
    obtain ⟨after, bounded⟩ := w.rearmed bounded
    exact ⟨before.trans after, bounded⟩

/-- A session's lease is armed now or disarmed (R109, R113). -/
theorem rearmed_putSessState {s : State} (l : LinkNo) (x : SessState)
    (fresh : ∀ d e, x = .opened d e → Fresh s d) : Rearmed s (putSessState l x s) where
  uptime := rfl
  clkin := rfl
  leases m d armed := by
    rw [session_putSessState] at armed
    split at armed
    · unfold Session.leaseDeadline at armed
      split at armed
      · rename_i opened
        exact .inr (Option.some.inj armed ▸ fresh _ _ opened)
      · cases armed
      · cases armed
    · exact .inl armed
  waits _ _ := .inl
  holds _ _ := .inl
  arrivals _ _ := .inl

/-- After RESTART no deadline is armed. -/
theorem rearmed_cleared {s u : State} (uptime : u.uptime = s.uptime) (clkin : u.clkin = s.clkin)
    (closed : ∀ l, (u.session l).state = .closed) : Rearmed s (clearGroups (clearPool u)) := by
  refine ⟨uptime, clkin, fun l d armed => ?_, fun i d armed => ?_, fun i d armed => ?_, fun g a listed => ?_⟩
  · rw [session_cleared, Session.leaseDeadline, closed] at armed
    cases armed
  · rw [state_cleared] at armed; cases armed
  · rw [state_cleared] at armed; cases armed
  · rw [group_cleared] at listed; cases listed

/-- No move arms a deadline but from now. -/
theorem Move.rearmed {s t : State} (h : Move s t) (bounded : Bounded s) : Rearmed s t ∧ Bounded t := by
  have ⟨lease, limits⟩ := bounded
  cases h with
  | work w => exact w.rearmed bounded
  | take l f taken =>
    obtain ⟨_, _, -, -, -, -, rfl⟩ := taken
    exact ⟨rearmed_of_same rfl rfl rfl (fun _ => rfl) rfl, bounded⟩
  | opens l =>
    exact ⟨rearmed_putSessState l _ fun d e opened => by cases opened; exact ⟨_, lease l, rfl⟩, bounded⟩
  | renew l =>
    exact ⟨rearmed_putSessState l _ fun d e opened => by cases opened; exact ⟨_, lease l, rfl⟩, bounded⟩
  | close l => exact ⟨rearmed_putSessState l _ nofun, bounded⟩
  | lapse l => exact ⟨rearmed_putSessState l _ nofun, bounded⟩
  | write p _ _ settings =>
    refine ⟨rearmed_of_same rfl rfl rfl (fun _ => rfl) rfl, fun l => ?_, limits⟩
    rcases settings l with same | ⟨-, -, -, -, range, -⟩
    · show (p.links.get l).lease ≤ 65535
      rw [same]; exact lease l
    · exact range.trans (by decide)
  | start => exact ⟨rearmed_of_same rfl rfl rfl (fun _ => rfl) rfl, bounded⟩
  | restart =>
    obtain ⟨-, -, -, -, uptime, clkin, -⟩ := endSessions_control { s with service := .setup }
    refine ⟨rearmed_cleared uptime clkin fun l => ?_, fun l => ?_, fun i n carried => ?_⟩
    · rw [session_endSessions, endedSession_state]
    · have ended := profile_of_sameControl (endSessions_control { s with service := .setup })
      rw [State.settings, profile_cleared, ended]
      exact lease l
    · rw [state_cleared] at carried; cases carried

theorem Moves.rearmed {s t : State} (h : Moves s t) (bounded : Bounded s) : Rearmed s t ∧ Bounded t := by
  induction h with
  | refl => exact ⟨.refl s, bounded⟩
  | tail _ m ih =>
    obtain ⟨before, bounded⟩ := ih
    obtain ⟨after, bounded⟩ := m.rearmed bounded
    exact ⟨before.trans after, bounded⟩

/-! ### No deadline past its latest moment -/

/-- R127's invariant in two parts: what can be armed, and what is. -/
theorem deadlinesInTime_iff_bounded (s : State) :
    DeadlinesInTime s ↔ Bounded s ∧ ∀ c d, Armed s c d → InTime s d := by
  have limits : (∀ i o b m g d h, (s.record i).state = .waiting o b m g d (some h) → h ≤ 65535) ↔
      ∀ i n, (s.record i).state.limit = some n → n ≤ 65535 := by
    refine forall_congr' fun i => ⟨fun h n carried => ?_, fun h o b m g d n state => h n (by rw [state]; rfl)⟩
    cases state : (s.record i).state with
    | waiting o b m g d limit =>
      rw [state] at carried
      obtain rfl : limit = some n := carried
      exact h o b m g d n state
    | free | held | converting | watching => rw [state] at carried; cases carried
  unfold DeadlinesInTime Bounded
  rw [limits, and_assoc]

/-- What holds of every deadline that was armed and of every one just armed holds of every deadline that is armed. -/
theorem Rearmed.forall_armed {s t : State} (h : Rearmed s t) {P : Instant → Prop} (before : ∀ c d, Armed s c d → P d)
    (fresh : ∀ d, Fresh s d → P d) : ∀ c d, Armed t c d → P d := by
  obtain ⟨leases, waits, holds, arrivals⟩ := (forall_armed_iff s P).1 before
  refine (forall_armed_iff t P).2 ⟨fun l d armed => ?_, fun i d armed => ?_, fun i d armed => ?_, fun g a listed d due => ?_⟩
  · exact (h.leases l d armed).elim (leases l d) (fresh d)
  · exact (h.waits i d armed).elim (waits i d) (fresh d)
  · exact (h.holds i d armed).elim (holds i d) (fresh d)
  · exact (h.arrivals g a listed).elim (fun old => arrivals g a old d due) fun new => fresh d (new d due)

/-- Where no time has passed no deadline is past its latest moment. -/
theorem Rearmed.deadlinesInTime {s t : State} (rearmed : Rearmed s t) (bounded : Bounded t) (h : DeadlinesInTime s) :
    DeadlinesInTime t := by
  obtain ⟨-, inTime⟩ := (deadlinesInTime_iff_bounded s).1 h
  refine (deadlinesInTime_iff_bounded t).2 ⟨bounded, ?_⟩
  have now (d : Instant) : InTime t d ↔ InTime s d := by unfold InTime; rw [rearmed.uptime, rearmed.clkin]
  simp only [now]
  exact rearmed.forall_armed inTime fun d => inTime_of_fresh

/-- No move leaves a deadline past its latest moment. -/
theorem Moves.deadlinesInTime {s t : State} (moves : Moves s t) (h : DeadlinesInTime s) : DeadlinesInTime t := by
  obtain ⟨bounded, -⟩ := (deadlinesInTime_iff_bounded s).1 h
  obtain ⟨rearmed, bounded⟩ := moves.rearmed bounded
  exact rearmed.deadlinesInTime bounded h

end Sys2Proof.Machine
end

section
/-! PROOFS. The passing of time: the expiries that it delivers, each taken as its own command, leave nothing overdue (R127). -/

namespace Sys2Proof.Machine

open Sys2Proof.Safety

/-! ### One expiry disarms its deadline -/

/-- A lapse leaves the session LAPSED (R114). -/
theorem state_lapse (l : LinkNo) (cause : EndCause) (s : State) : ((lapse l cause s).session l).state = .lapsed := by
  obtain ⟨-, sessions, -⟩ := (works_lapse l cause s).frame
  rw [sessions, session_putSessState, if_pos rfl]

/-- A scan arms no wait deadline that was disarmed but from now. -/
theorem waitDeadline_after_scan {s u : State} (works : Works s u) (bounded : Bounded s) {i : RecNo}
    (idle : (u.record i).state.waitDeadline = none) {d : Instant}
    (armed : ((grantScan u).record i).state.waitDeadline = some d) : Fresh s d := by
  obtain ⟨before, bounded⟩ := works.rearmed bounded
  obtain ⟨scan, -⟩ := (works_grantScan u).rearmed bounded
  rcases scan.waits i d armed with old | fresh
  · rw [idle] at old; cases old
  · exact before.fresh fresh

/-- Nor a hold deadline. -/
theorem holdDeadline_after_scan {s u : State} (works : Works s u) (bounded : Bounded s) {i : RecNo}
    (idle : (u.record i).state.holdDeadline = none) {d : Instant}
    (armed : ((grantScan u).record i).state.holdDeadline = some d) : Fresh s d := by
  obtain ⟨before, bounded⟩ := works.rearmed bounded
  obtain ⟨scan, -⟩ := (works_grantScan u).rearmed bounded
  rcases scan.holds i d armed with old | fresh
  · rw [idle] at old; cases old
  · exact before.fresh fresh

/-- A record that has been written anew. -/
theorem record_set_self (s : State) (i : RecNo) (r : Record) : (s.records.set i r).get i = r := by
  rw [Vector.get_set_fin, if_pos rfl]

/-- The expiry of a wait leaves its record with no wait deadline but one just armed. -/
theorem waitDeadline_expireWait {i : RecNo} {s : State} (bounded : Bounded s) {d : Instant}
    (armed : ((expireWait i s).record i).state.waitDeadline = some d) : Fresh s d := by
  unfold expireWait at armed
  split at armed
  · rename_i o b m tag w h state
    refine waitDeadline_after_scan (works_endLockWait i _ s) bounded ?_ armed
    rw [endLockWait_eq i _ o b m tag w h s state]
    exact congrArg (·.state.waitDeadline) (record_set_self s i _)
  · rename_i o b token tag w h state
    refine waitDeadline_after_scan (works_endConversion i _ s) bounded ?_ armed
    rw [endConversion_eq i _ o b token tag w h s state]
    exact congrArg (·.state.waitDeadline) (record_set_self s i _)
  · rename_i o b tag w state
    refine waitDeadline_after_scan (works_endWatch i _ s) bounded ?_ armed
    rw [endWatch_eq i _ o b tag w s state]
    exact congrArg (·.state.waitDeadline) (record_set_self s i _)
  · rename_i state; rw [state] at armed; cases armed
  · rename_i state; rw [state] at armed; cases armed

/-- A record with a hold deadline is a holding. -/
theorem holding_of_holdDeadline {x : RecState} {d : Instant} (armed : x.holdDeadline = some d) :
    (∃ o b m token h, x = .held o b m token (some h) ∧ h.due = d) ∨
    ∃ o b token tag w h, x = .converting o b token tag w (some h) ∧ h.due = d := by
  cases x with
  | free | waiting | watching => cases armed
  | held o b m token hold =>
    obtain ⟨h, rfl, due⟩ := Option.map_eq_some_iff.1 armed
    exact .inl ⟨o, b, m, token, h, rfl, due⟩
  | converting o b token tag w hold =>
    obtain ⟨h, rfl, due⟩ := Option.map_eq_some_iff.1 armed
    exact .inr ⟨o, b, token, tag, w, h, rfl, due⟩

/-- A holding that has been revoked is FREE (R70, R71). -/
theorem state_revoked {i : RecNo} {s : State} {d : Instant} (armed : (s.record i).state.holdDeadline = some d) :
    ((revoke i (concludeConversion i s)).record i).state = .free := by
  rcases holding_of_holdDeadline armed with ⟨o, b, m, token, h, state, -⟩ | ⟨o, b, token, tag, w, h, state, -⟩
  · rw [concludeConversion_held i o b m token _ s state,
      revoke_eq i o token s (by rw [state]; rfl) (by rw [state]; rfl)]
    exact congrArg (·.state) (record_set_self s i _)
  · rw [concludeConversion_converting i o b token tag w _ s state,
      revoke_closeTag i o tag _ token s (by rw [state]; rfl) (by rw [state]; rfl)]
    exact congrArg (·.state) (record_set_self s i _)

/-- The expiry of a hold leaves its record with no hold deadline but one just armed. -/
theorem holdDeadline_expireHold {i : RecNo} {s : State} (bounded : Bounded s) {d e : Instant}
    (before : (s.record i).state.holdDeadline = some e)
    (armed : ((expireHold i s).record i).state.holdDeadline = some d) : Fresh s d :=
  holdDeadline_after_scan ((works_concludeConversion i s).trans (works_revoke i _)) bounded
    (by rw [state_revoked before]; rfl) armed

/-! ### Nothing overdue -/

theorem overdue_eq_false_iff (later : Instant) (o : Option Instant) :
    overdue later o = false ↔ ∀ d, o = some d → ¬ LatestPassed later d := by
  cases o with
  | none => simp [overdue_none]
  | some d => rw [Bool.eq_false_iff, ne_eq, overdue_some_iff]; simp

/-- Time stands, and what can be armed has an interval that the spec can give. -/
def Standing (later : Instant) (s : State) : Prop := Soon s later ∧ Bounded s

theorem Moves.standing {later : Instant} {s t : State} (moves : Moves s t) (h : Standing later s) : Standing later t := by
  obtain ⟨soon, bounded⟩ := h
  obtain ⟨rearmed, bounded⟩ := moves.rearmed bounded
  refine ⟨?_, bounded⟩
  unfold Soon
  rw [rearmed.uptime, rearmed.clkin]
  exact soon

/-- A place where nothing is overdue stays one. -/
theorem Moves.quiet_lease {later : Instant} {s t : State} (moves : Moves s t) (h : Standing later s) {l : LinkNo}
    (quiet : overdue later (s.session l).leaseDeadline = false) : overdue later (t.session l).leaseDeadline = false := by
  rw [overdue_eq_false_iff] at quiet ⊢
  exact fun d armed => ((moves.rearmed h.2).1.leases l d armed).elim (quiet d) h.1.not_passed

theorem Moves.quiet_wait {later : Instant} {s t : State} (moves : Moves s t) (h : Standing later s) {i : RecNo}
    (quiet : overdue later (s.record i).state.waitDeadline = false) :
    overdue later (t.record i).state.waitDeadline = false := by
  rw [overdue_eq_false_iff] at quiet ⊢
  exact fun d armed => ((moves.rearmed h.2).1.waits i d armed).elim (quiet d) h.1.not_passed

theorem Moves.quiet_hold {later : Instant} {s t : State} (moves : Moves s t) (h : Standing later s) {i : RecNo}
    (quiet : overdue later (s.record i).state.holdDeadline = false) :
    overdue later (t.record i).state.holdDeadline = false := by
  rw [overdue_eq_false_iff] at quiet ⊢
  exact fun d armed => ((moves.rearmed h.2).1.holds i d armed).elim (quiet d) h.1.not_passed

/-- Nothing of a group's list is overdue. -/
def QuietGroup (later : Instant) (s : State) (g : GroupNo) : Prop :=
  ∀ a ∈ (s.group g).arrivals, overdue later a.due = false

theorem Moves.quiet_group {later : Instant} {s t : State} (moves : Moves s t) (h : Standing later s) {g : GroupNo}
    (quiet : QuietGroup later s g) : QuietGroup later t g := by
  intro a listed
  rcases (moves.rearmed h.2).1.arrivals g a listed with old | fresh
  · exact quiet a old
  · exact (overdue_eq_false_iff ..).2 fun d due => h.1.not_passed (fresh d due)

/-- A fold whose operations are moves and each settle their own place settles every place. -/
theorem foldl_settles {ι : Type} {later : Instant} (f : State → ι → State) {Q : State → ι → Prop}
    (moves : ∀ t i, Moves t (f t i)) (keep : ∀ {t u i}, Moves t u → Standing later t → Q t i → Q u i)
    (settle : ∀ t i, Standing later t → Q (f t i) i) (list : List ι) (s : State) (h : Standing later s) :
    ∀ i ∈ list, Q (list.foldl f s) i := by
  induction list generalizing s with
  | nil => nofun
  | cons i rest ih =>
    have here := (moves s i).standing h
    intro j listed
    rcases List.mem_cons.1 listed with rfl | further
    · exact keep (moves_foldl f moves rest _) here (settle s j h)
    · exact ih _ here j further

theorem moves_deliverLeases (later : Instant) (t : State) (l : LinkNo) :
    Moves t (if overdue later (t.session l).leaseDeadline then lapse l .lapsed t else t) := by
  split
  · rename_i late
    obtain ⟨d, armed, -⟩ := overdue_armed late
    exact moves_lapse l .lapsed t (isOpen_of_leaseDeadline armed)
  · exact .refl

theorem moves_deliverWaits (later : Instant) (t : State) (i : RecNo) :
    Moves t (if overdue later (t.record i).state.waitDeadline then expireWait i t else t) := by
  split
  · exact (works_expireWait i t).moves
  · exact .refl

theorem moves_deliverHolds (later : Instant) (t : State) (i : RecNo) :
    Moves t (if overdue later (t.record i).state.holdDeadline then expireHold i t else t) := by
  split
  · exact (works_expireHold i t).moves
  · exact .refl

theorem moves_deliverArrivals (later : Instant) (t : State) (g : GroupNo) :
    Moves t (match (t.group g).arrivals.find? (fun a => overdue later a.due) with
      | some a => expireArrival g a t
      | none => t) := by
  split
  · exact (works_expireArrival g _ t).moves
  · exact .refl

/-- After the overdue expiries have been delivered none is left. -/
theorem nothingOverdue_deliverOverdue {later : Instant} {s : State} (h : Standing later s) :
    NothingOverdue later (deliverOverdue later s) := by
  have leaseMoves : Moves s (deliverLeases later s) := moves_foldl _ (moves_deliverLeases later) _ s
  have waitMoves : Moves (deliverLeases later s) (deliverWaits later (deliverLeases later s)) :=
    moves_foldl _ (moves_deliverWaits later) _ _
  have holdMoves : Moves (deliverWaits later (deliverLeases later s))
      (deliverHolds later (deliverWaits later (deliverLeases later s))) := moves_foldl _ (moves_deliverHolds later) _ _
  have groupMoves : Moves (deliverHolds later (deliverWaits later (deliverLeases later s))) (deliverOverdue later s) :=
    moves_foldl _ (moves_deliverArrivals later) _ _
  have h1 := leaseMoves.standing h
  have h2 := waitMoves.standing h1
  have h3 := holdMoves.standing h2
  refine (nothingOverdue_iff later _).2 ⟨fun l => ?_, fun i => ?_, fun i => ?_, fun g => ?_⟩
  · refine Moves.quiet_lease ((waitMoves.trans holdMoves).trans groupMoves) h1 ?_
    refine foldl_settles (Q := fun t l => overdue later (t.session l).leaseDeadline = false) _ (moves_deliverLeases later)
      (fun moves h => moves.quiet_lease h) (fun t l _ => ?_) _ s h l (List.mem_finRange l)
    split
    · rw [Session.leaseDeadline, state_lapse]; rfl
    · rename_i quiet; exact Bool.eq_false_iff.2 quiet
  · refine Moves.quiet_wait (holdMoves.trans groupMoves) h2 ?_
    refine foldl_settles (Q := fun t i => overdue later (t.record i).state.waitDeadline = false) _ (moves_deliverWaits later)
      (fun moves h => moves.quiet_wait h) (fun t i standing => ?_) _ _ h1 i (List.mem_finRange i)
    split
    · exact (overdue_eq_false_iff ..).2 fun d armed => standing.1.not_passed (waitDeadline_expireWait standing.2 armed)
    · rename_i quiet; exact Bool.eq_false_iff.2 quiet
  · refine Moves.quiet_hold groupMoves h3 ?_
    refine foldl_settles (Q := fun t i => overdue later (t.record i).state.holdDeadline = false) _ (moves_deliverHolds later)
      (fun moves h => moves.quiet_hold h) (fun t i standing => ?_) _ _ h2 i (List.mem_finRange i)
    split
    · rename_i late
      obtain ⟨e, before, -⟩ := overdue_armed late
      exact (overdue_eq_false_iff ..).2 fun d armed =>
        standing.1.not_passed (holdDeadline_expireHold standing.2 before armed)
    · rename_i quiet; exact Bool.eq_false_iff.2 quiet
  · refine foldl_settles (Q := QuietGroup later) _ (moves_deliverArrivals later) (fun moves h => moves.quiet_group h)
      (fun t g _ => ?_) _ _ h3 g (List.mem_finRange g)
    split
    · intro a listed
      rw [group_expireArrival, if_pos rfl] at listed
      cases listed
    · rename_i none
      exact fun a listed => by simpa using List.find?_eq_none.1 none a listed

/-! ### R127 of every step -/

/-- When the instant has come, what could wait is in time. -/
theorem deadlinesInTime_atInstant {s : State} {later : Instant} (soon : Soon s later) (h : DeadlinesInTime s)
    (waits : NothingOverdue later s) : DeadlinesInTime (s.atInstant later) := by
  obtain ⟨bounded, inTime⟩ := (deadlinesInTime_iff_bounded s).1 h
  refine (deadlinesInTime_iff_bounded _).2 ⟨bounded, (forall_armed_iff (s.atInstant later) _).2 ?_⟩
  exact (forall_armed_iff s _).1 fun c d armed => soon.inTime (inTime c d armed) (waits c d armed)

/-- The passing of time to an instant, whatever the link units do in it. -/
theorem deadlinesInTime_passing {s u : State} {later : Instant} (soon : Soon s later)
    (work : Works (deliverOverdue later s) u) (h : DeadlinesInTime s) : DeadlinesInTime (u.atInstant later) := by
  have delivered := moves_deliverOverdue later s
  obtain ⟨bounded, -⟩ := (deadlinesInTime_iff_bounded s).1 h
  have standing := delivered.standing ⟨soon, bounded⟩
  have quiet := nothingOverdue_deliverOverdue ⟨soon, bounded⟩
  refine deadlinesInTime_atInstant (work.moves.standing standing).1 (Moves.deadlinesInTime (delivered.trans work.moves) h) ?_
  exact (work.moves.rearmed standing.2).1.forall_armed quiet fun d => standing.1.not_passed

/-- After a reset nothing is armed. -/
theorem deadlinesInTime_reset {t : State} (profile : ∀ l, (t.settings l).lease ≤ 65535)
    (sessions : t.sessions = State.reset.sessions) (groups : t.groups = State.reset.groups)
    (free : ∀ i, (t.record i).state = .free) : DeadlinesInTime t := by
  refine (deadlinesInTime_iff_bounded t).2 ⟨⟨profile, fun i n carried => ?_⟩,
    (forall_armed_iff t _).2 ⟨fun l d armed => ?_, fun i d armed => ?_, fun i d armed => ?_, fun g a listed => ?_⟩⟩
  · rw [free] at carried; cases carried
  · have : t.session l = Session.atReset := by simp [State.session, sessions, State.reset, Vector.get_eq_getElem]
    rw [this] at armed; cases armed
  · rw [free] at armed; cases armed
  · rw [free] at armed; cases armed
  · have : t.group g = Group.atReset := by simp [State.group, groups, State.reset, Vector.get_eq_getElem]
    rw [this] at listed; cases listed

/-- What arms nothing and lets no time pass. -/
theorem deadlinesInTime_of_same {s t : State} (h : DeadlinesInTime s) (uptime : t.uptime = s.uptime)
    (clkin : t.clkin = s.clkin) (profile : t.profile = s.profile) (records : t.records = s.records)
    (sessions : t.sessions = s.sessions) (groups : t.groups = s.groups) : DeadlinesInTime t := by
  obtain ⟨⟨lease, limits⟩, -⟩ := (deadlinesInTime_iff_bounded s).1 h
  refine (rearmed_of_same uptime clkin records (fun l => by rw [State.session, sessions]; rfl) groups).deadlinesInTime
    ⟨fun l => ?_, fun i n carried => ?_⟩ h
  · rw [State.settings, profile]; exact lease l
  · rw [State.record, records] at carried; exact limits i n carried

/-- The strap levels arm nothing. -/
theorem deadlinesInTime_latchStraps (straps : Straps) {s : State} (h : DeadlinesInTime s) :
    DeadlinesInTime (latchStraps straps s) := by
  unfold latchStraps
  dsimp only
  split <;> exact deadlinesInTime_of_same h rfl rfl rfl rfl rfl rfl

theorem lease_atReset {t : State} (profile : t.profile = Profile.atReset) (l : LinkNo) : (t.settings l).lease ≤ 65535 := by
  obtain ⟨links, -⟩ := profileInRange_atReset t profile
  obtain ⟨-, -, -, -, range, -⟩ := links l
  omega

/-- Every step but the passing of time is moves, or a reset. -/
theorem deadlinesInTime_exec {c : Instr} {s t : State} (h : exec c s = .next t) (before : DeadlinesInTime s) :
    DeadlinesInTime t := by
  by_cases working : isWorking c
  · exact (moves_exec working h).deadlinesInTime before
  cases c with
  | powerOn m a =>
    rw [← Host.Outcome.next.inj h]
    refine deadlinesInTime_latchStraps _ (deadlinesInTime_reset (lease_atReset rfl) rfl rfl fun i => ?_)
    exact congrArg Record.state (record_reset i)
  | resetNAssert =>
    change execResetNAssert s = .next t at h
    unfold execResetNAssert at h
    split at h
    · rw [← Host.Outcome.next.inj h]; exact before
    · rw [← Host.Outcome.next.inj h]
      exact deadlinesInTime_reset (lease_atReset rfl) rfl rfl (state_resetValues s)
  | resetNRelease m a =>
    rcases outcome_ite h with rfl | ⟨held, rfl⟩
    · exact before
    · exact deadlinesInTime_latchStraps _ (deadlinesInTime_of_same before rfl rfl rfl rfl rfl rfl)
  | uptimeTick =>
    change execUptimeTick s = .next t at h
    unfold execUptimeTick at h
    split at h
    · rw [← Host.Outcome.next.inj h]; exact before
    · rw [← Host.Outcome.next.inj h]
      exact deadlinesInTime_passing (soon_nextMillisecond s) .refl before
  | _ => exact absurd trivial working

/-- Settles O60: what is armed is armed for 65,535 ms at most, and the passing of time delivers first what it would leave
overdue. -/
theorem stepKeepsDeadlinesInTime : Obligations.StepKeepsDeadlinesInTime := by
  intro s t before h
  unfold step at h
  split at h
  · rw [← Host.Outcome.next.inj h]
    unfold clkinPeriod
    split
    · exact before
    · exact deadlinesInTime_passing (soon_nextPeriod s) (works_linePeriod _) before
  · exact deadlinesInTime_exec h (deadlinesInTime_of_same before rfl rfl rfl rfl rfl rfl)

end Sys2Proof.Machine
end

section
/-! PROOFS. The passing of time, concluded: what a tick and an idle step leave, and the commands that they deliver. -/

namespace Sys2Proof.Machine

open Sys2Proof.Safety

/-! ### One period at every link unit -/

theorem nextPeriod_eq (s : State) : s.nextPeriod = periodEnd s := by
  unfold State.nextPeriod periodEnd Config.clkinPerMs State.nextMillisecond
  by_cases last : s.clkin.val = 18431
  · rw [if_pos last, if_pos (by omega)]
  · rw [if_neg last, if_neg (by omega)]

/-- What a CLKIN period reads and writes of one link. -/
def periodView (s : State) (l : LinkNo) : LinkSettings × LinkUnit := (s.settings l, s.link l)

/-- What it makes of it. -/
def periodPassed (v : LinkSettings × LinkUnit) : LinkSettings × LinkUnit := (v.1, bitPassed v.1 (gapPassed v.2))

theorem link_linePeriod (s : State) (l : LinkNo) :
    (linePeriod s).link l = bitPassed (s.settings l) (gapPassed (s.link l)) := by
  have write (t : State) (i j : LinkNo) :
      periodView (linkPeriod t i) j = if i = j then periodPassed (periodView t i) else periodView t j := by
    rw [linkPeriod_eq]
    by_cases same : i = j
    · subst same; simp [periodView, periodPassed]
    · simp [periodView, same, State.link_putLink_ne]
  have each := foldl_each periodView linkPeriod periodPassed write (List.finRange 6) (List.nodup_finRange 6) s l
  rw [if_pos (List.mem_finRange l), periodView, periodView, periodPassed] at each
  exact (Prod.mk.inj each).2

/-- One CLKIN period passes at each link unit (R133, R144). -/
theorem linePeriod_eq (s : State) :
    linePeriod s = { s with links := Vector.ofFn fun l => bitPassed (s.settings l) (gapPassed (s.link l)) } := by
  have frame : ∃ v, linePeriod s = { s with links := v } := by
    refine foldl_keeps (P := fun t => ∃ v, t = { s with links := v }) linkPeriod (fun t l => ?_) (List.finRange 6) ⟨s.links, rfl⟩
    rintro ⟨v, rfl⟩
    rw [linkPeriod_eq]
    exact ⟨_, rfl⟩
  obtain ⟨v, whole⟩ := frame
  have links : v = Vector.ofFn fun l => bitPassed (s.settings l) (gapPassed (s.link l)) := by
    ext l hl
    rw [Vector.getElem_ofFn, ← link_linePeriod, whole]
    rfl
  rw [whole, links]

/-! ### Each delivery is the expiry's own command (R127) -/

theorem delivers_append {later : Instant} {first : List Instr} {s t u : State} {second : List Instr}
    (h : Delivers later first s t) (k : Delivers later second t u) : Delivers later (first ++ second) s u := by
  induction first generalizing s with
  | nil => cases h; exact k
  | cons c rest ih =>
    obtain ⟨d, v, armed, passed, next, further⟩ := h
    exact ⟨d, v, armed, passed, next, ih further⟩

/-- The instant comes next, deadlines are in time, and the entries of a list are of distinct links. -/
structure Ready (later : Instant) (s : State) : Prop where
  high : s.resetHeld = false
  soon : Soon s later
  inTime : DeadlinesInTime s
  distinct : ∀ g, ((s.group g).arrivals.map (·.link)).Nodup

/-- Each list is as it was, or has emptied. -/
def Dwindles (s t : State) : Prop :=
  t.resetHeld = s.resetHeld ∧ ∀ g, (t.group g).arrivals = (s.group g).arrivals ∨ (t.group g).arrivals = []

theorem Ready.after {later : Instant} {s t : State} (h : Ready later s) (moves : Moves s t) (dwindles : Dwindles s t) :
    Ready later t where
  high := dwindles.1.trans h.high
  soon := (moves.standing ⟨h.soon, ((deadlinesInTime_iff_bounded s).1 h.inTime).1⟩).1
  inTime := moves.deadlinesInTime h.inTime
  distinct g := by
    rcases dwindles.2 g with same | empty
    · rw [same]; exact h.distinct g
    · rw [empty]; exact .nil

/-- An overdue deadline has fallen due. -/
theorem Ready.reached {later : Instant} {s : State} (h : Ready later s) {c : Instr} {d : Instant} (armed : Armed s c d)
    (passed : LatestPassed later d) : s.reached d = true :=
  h.soon.reached (((deadlinesInTime_iff_bounded s).1 h.inTime).2 c d armed) passed

/-- A fold whose operations are each nothing or a delivery is a sequence of deliveries. -/
theorem delivers_foldl {ι : Type} {later : Instant} (f : State → ι → State)
    (step : ∀ t i, Ready later t → Ready later (f t i) ∧ ∃ expiries, Delivers later expiries t (f t i)) (list : List ι)
    (s : State) (h : Ready later s) :
    Ready later (list.foldl f s) ∧ ∃ expiries, Delivers later expiries s (list.foldl f s) := by
  induction list generalizing s with
  | nil => exact ⟨h, [], rfl⟩
  | cons i rest ih =>
    obtain ⟨here, first, delivered⟩ := step s i h
    obtain ⟨there, second, further⟩ := ih _ here
    exact ⟨there, first ++ second, delivers_append delivered further⟩

/-- One delivery. -/
theorem Ready.delivers {later : Instant} {s t : State} (h : Ready later s) {c : Instr} {d : Instant} (armed : Armed s c d)
    (passed : LatestPassed later d) (next : exec c s = .next t) (moves : Moves s t) (dwindles : Dwindles s t) :
    Ready later t ∧ ∃ expiries, Delivers later expiries s t :=
  ⟨h.after moves dwindles, [c], d, t, armed, passed, next, rfl⟩

/-- No delivery. -/
theorem Ready.nothing {later : Instant} {s : State} (h : Ready later s) :
    Ready later s ∧ ∃ expiries, Delivers later expiries s s := ⟨h, [], rfl⟩

/-! ### What the expiries do to the arrival lists -/

theorem groups_freeRecord (i : RecNo) (s : State) : (freeRecord i s).groups = s.groups := by
  obtain ⟨-, -, -, -, groups⟩ := freeRecord_frame i s
  exact groups

theorem groups_reclaimFailed (l : LinkNo) (s : State) : (reclaimFailed l s).groups = s.groups := by
  unfold reclaimFailed
  rw [(grantScan_frame _).2]
  exact freeOwned_induct (fun t => t.groups = s.groups) freeRecord l
    (fun t i h _ => (groups_freeRecord i t).trans h) s rfl

theorem groups_flush (l : LinkNo) (s : State) : (flush l s).groups = s.groups := by rw [flush_eq]; rfl

theorem group_notifyArrivals (notice : Nat → Message) (rank : Nat) (list : List Arrival) (s : State) (g : GroupNo) :
    (notifyArrivals notice rank list s).group g = s.group g :=
  notifyArrivals_induct (fun t => t.group g = s.group g) notice (fun _ _ _ _ h => h) rank list s rfl

theorem group_breakRound (g : GroupNo) (cause : BreakCause) (others : List Arrival) (s : State) (h : GroupNo) :
    (breakRound g cause others s).group h =
      if g = h then { generation := (s.group g).generation + 1, arrivals := [] } else s.group h := by
  unfold breakRound endRound
  dsimp only
  rw [State.group_putGroup, group_notifyArrivals, group_notifyArrivals]

/-- A departure breaks the rounds of the link's groups and leaves the others (R103). -/
theorem arrivals_depart (l : LinkNo) (s : State) (g : GroupNo) :
    ((depart l s).group g).arrivals = (s.group g).arrivals ∨ ((depart l s).group g).arrivals = [] := by
  refine foldl_keeps (P := fun t => (t.group g).arrivals = (s.group g).arrivals ∨ (t.group g).arrivals = [])
    (departGroup l) (fun t k h => ?_) _ (.inl rfl)
  unfold departGroup
  split
  · rw [group_breakRound]
    split
    · exact .inr rfl
    · exact h
  · exact h

theorem dwindles_lapse (l : LinkNo) (cause : EndCause) (s : State) : Dwindles s (lapse l cause s) := by
  obtain ⟨⟨high, -⟩, -, -⟩ := (works_lapse l cause s).frame
  refine ⟨high, fun g => ?_⟩
  have before : (reclaimFailed l (queueReserved l 0 (.ended cause) (flush l (dropTags l (putSessState l .lapsed s))))).groups =
      s.groups := (groups_reclaimFailed l _).trans (groups_flush l _)
  have after := arrivals_depart l
    (reclaimFailed l (queueReserved l 0 (.ended cause) (flush l (dropTags l (putSessState l .lapsed s))))) g
  rw [State.group, State.group, before] at after
  exact after

theorem groups_expireWait (i : RecNo) (s : State) : (expireWait i s).groups = s.groups := by
  unfold expireWait
  split
  · rename_i o b m tag w h state
    rw [(grantScan_frame _).2, endLockWait_eq i _ o b m tag w h s state]
  · rename_i o b token tag w h state
    rw [(grantScan_frame _).2, endConversion_eq i _ o b token tag w h s state]
  · rename_i o b tag w state
    rw [(grantScan_frame _).2, endWatch_eq i _ o b tag w s state]
  · rfl
  · rfl

theorem groups_concludeConversion (i : RecNo) (s : State) : (concludeConversion i s).groups = s.groups := by
  unfold concludeConversion
  split <;> rfl

theorem groups_revoke (i : RecNo) (s : State) : (revoke i s).groups = s.groups := by
  unfold revoke
  split
  · exact groups_freeRecord i s
  · exact groups_freeRecord i s
  · rfl
  · rfl
  · rfl

theorem groups_expireHold (i : RecNo) (s : State) : (expireHold i s).groups = s.groups := by
  unfold expireHold
  rw [(grantScan_frame _).2, groups_revoke, groups_concludeConversion]

theorem dwindles_works {s t : State} (works : Works s t) (groups : t.groups = s.groups) : Dwindles s t := by
  obtain ⟨⟨high, -⟩, -, -⟩ := works.frame
  exact ⟨high, fun g => .inl (by rw [State.group, groups]; rfl)⟩

theorem dwindles_expireArrival (g : GroupNo) (a : Arrival) (s : State) : Dwindles s (expireArrival g a s) := by
  obtain ⟨⟨high, -⟩, -, -⟩ := (works_expireArrival g a s).frame
  refine ⟨high, fun h => ?_⟩
  rw [group_expireArrival]
  split
  · exact .inr rfl
  · exact .inl rfl

/-! ### The deliveries, phase by phase -/

theorem delivers_lease {later : Instant} (t : State) (l : LinkNo) (ready : Ready later t) :
    Ready later (if overdue later (t.session l).leaseDeadline then lapse l .lapsed t else t) ∧
    ∃ expiries, Delivers later expiries t (if overdue later (t.session l).leaseDeadline then lapse l .lapsed t else t) := by
  split
  · rename_i late
    obtain ⟨d, armed, passed⟩ := overdue_armed late
    have is_open := isOpen_of_leaseDeadline armed
    obtain ⟨d', e, opened⟩ := Session.isOpen_cases is_open
    obtain rfl : d' = d := by simpa [Session.leaseDeadline, opened] using armed
    have place : Armed t (.leaseDeadlineExpiry l) d' := .lease l d' e opened
    refine ready.delivers place passed ?_ (moves_lapse l .lapsed t is_open) (dwindles_lapse l .lapsed t)
    have due : t.expires (t.session l).leaseDeadline = true := by
      rw [armed]; exact expires_of_reached t d' ready.high (ready.reached place passed)
    exact if_pos due
  · exact ready.nothing

theorem delivers_wait {later : Instant} (t : State) (i : RecNo) (ready : Ready later t) :
    Ready later (if overdue later (t.record i).state.waitDeadline then expireWait i t else t) ∧
    ∃ expiries, Delivers later expiries t (if overdue later (t.record i).state.waitDeadline then expireWait i t else t) := by
  split
  · rename_i late
    obtain ⟨d, armed, passed⟩ := overdue_armed late
    have moves := (works_expireWait i t).moves
    have dwindles := dwindles_works (works_expireWait i t) (groups_expireWait i t)
    have due {c : Instr} (place : Armed t c d) : t.expires (t.record i).state.waitDeadline = true := by
      rw [armed]; exact expires_of_reached t d ready.high (ready.reached place passed)
    cases state : (t.record i).state with
    | waiting o b m tag w h =>
      obtain rfl : w = some d := by rw [state] at armed; exact armed
      have place : Armed t (.lockWaitDeadlineExpiry i) d := .lockWait i o b m tag d h state
      exact ready.delivers place passed
        (if_pos (by rw [due place, state]; rfl)) moves dwindles
    | converting o b token tag w h =>
      obtain rfl : w = some d := by rw [state] at armed; exact armed
      have place : Armed t (.convertWaitDeadlineExpiry i) d := .convertWait i o b token tag d h state
      exact ready.delivers place passed
        (if_pos (by rw [due place, state]; rfl)) moves dwindles
    | watching o b tag w =>
      obtain rfl : w = some d := by rw [state] at armed; exact armed
      have place : Armed t (.watchWaitDeadlineExpiry i) d := .watchWait i o b tag d state
      exact ready.delivers place passed
        (if_pos (by rw [due place, state]; rfl)) moves dwindles
    | free | held => rw [state] at armed; cases armed
  · exact ready.nothing

theorem delivers_hold {later : Instant} (t : State) (i : RecNo) (ready : Ready later t) :
    Ready later (if overdue later (t.record i).state.holdDeadline then expireHold i t else t) ∧
    ∃ expiries, Delivers later expiries t (if overdue later (t.record i).state.holdDeadline then expireHold i t else t) := by
  split
  · rename_i late
    obtain ⟨d, armed, passed⟩ := overdue_armed late
    have place : Armed t (.holdDeadlineExpiry i) d := by
      rcases holding_of_holdDeadline armed with ⟨o, b, m, token, h, state, rfl⟩ | ⟨o, b, token, tag, w, h, state, rfl⟩
      · exact .held i o b m token h state
      · exact .converting i o b token tag w h state
    exact ready.delivers place passed
      (execHoldDeadlineExpiry_of_due i d t ready.high armed (ready.reached place passed))
      (works_expireHold i t).moves (dwindles_works (works_expireHold i t) (groups_expireHold i t))
  · exact ready.nothing

theorem delivers_arrival {later : Instant} (t : State) (g : GroupNo) (ready : Ready later t) (u : State)
    (delivered : u = match (t.group g).arrivals.find? (fun a => overdue later a.due) with
      | some a => expireArrival g a t
      | none => t) :
    Ready later u ∧ ∃ expiries, Delivers later expiries t u := by
  rw [delivered]
  split
  · rename_i a found
    have listed := List.mem_of_find?_eq_some found
    obtain ⟨d, armed, passed⟩ := overdue_armed (List.find?_some found :)
    have place : Armed t (.arrivalDeadlineExpiry g a.link) d := .arrival g a.link a.tag d (by rw [← armed]; exact listed)
    exact ready.delivers place passed
      (execArrivalDeadlineExpiry_of_due g a d t ready.high listed (ready.distinct g) armed (ready.reached place passed))
      (works_expireArrival g a t).moves (dwindles_expireArrival g a t)
  · exact ready.nothing

/-- Delivering the overdue expiries is taking their commands, one after the other (R127). -/
theorem delivers_deliverOverdue {later : Instant} {s : State} (ready : Ready later s) :
    ∃ expiries, Delivers later expiries s (deliverOverdue later s) := by
  obtain ⟨ready1, first, leases⟩ := delivers_foldl _ delivers_lease (List.finRange 6) s ready
  obtain ⟨ready2, second, waits⟩ := delivers_foldl _ delivers_wait (List.finRange 128) _ ready1
  obtain ⟨ready3, third, holds⟩ := delivers_foldl _ delivers_hold (List.finRange 128) _ ready2
  obtain ⟨-, fourth, arrivals⟩ :=
    delivers_foldl _ (fun t g ready => delivers_arrival t g ready _ rfl) (List.finRange 8) _ ready3
  exact ⟨_, delivers_append (delivers_append (delivers_append leases waits) holds) arrivals⟩

/-! ### A tick and an idle step -/

theorem execUptimeTick_of_high {s : State} (high : s.resetHeld = false) :
    exec .uptimeTick s = .next ((deliverOverdue s.nextMillisecond s).atInstant s.nextMillisecond) :=
  if_neg (by rw [high]; exact Bool.false_ne_true)

theorem step_idle {s : State} (high : s.resetHeld = false) (idle : s.pending = []) :
    step s = .next ((linePeriod (deliverOverdue s.nextPeriod s)).atInstant s.nextPeriod) := by
  unfold step
  rw [idle]
  dsimp only
  rw [clkinPeriod, if_neg (by rw [high]; exact Bool.false_ne_true)]

/-- Settles O7: the expiries delivered are the overdue ones, each by its own command, and after them nothing is overdue. -/
theorem timePassesAndDelivers : Obligations.TimePassesAndDelivers := by
  intro s high
  refine ⟨fun quiet => ?_, fun quiet idle => ?_, fun inTime distinct => ⟨?_, fun idle => ?_⟩⟩
  · rw [execUptimeTick_of_high high, deliverOverdue_eq_self s.nextMillisecond s quiet]
    rfl
  · rw [step_idle high idle, nextPeriod_eq, deliverOverdue_eq_self _ s quiet, linePeriod_eq]
    rfl
  · have ready : Ready s.nextMillisecond s := ⟨high, soon_nextMillisecond s, inTime, distinct⟩
    obtain ⟨expiries, delivered⟩ := delivers_deliverOverdue ready
    exact ⟨expiries, _, delivered,
      nothingOverdue_deliverOverdue ⟨ready.soon, ((deadlinesInTime_iff_bounded s).1 inTime).1⟩, execUptimeTick_of_high high⟩
  · have ready : Ready s.nextPeriod s := ⟨high, soon_nextPeriod s, inTime, distinct⟩
    obtain ⟨expiries, delivered⟩ := delivers_deliverOverdue ready
    have quiet := nothingOverdue_deliverOverdue ⟨ready.soon, ((deadlinesInTime_iff_bounded s).1 inTime).1⟩
    rw [nextPeriod_eq] at delivered quiet
    refine ⟨expiries, _, delivered, quiet, ?_⟩
    rw [step_idle high idle, nextPeriod_eq]
    generalize deliverOverdue (periodEnd s) s = u
    rw [linePeriod_eq]
    rfl

end Sys2Proof.Machine
end


section
/-! PROOFS. Resets, the queue of the commands, and what no command but a reset changes. -/

namespace Sys2Proof.Machine

open Sys2Proof.Safety

/-! ### The step and the queue of the commands -/

/-- Settles O1: the queue's front command is what `step` runs. -/
theorem stepRunsFrontCommand : Obligations.StepRunsFrontCommand := fun _ _ _ => rfl

theorem serve_next (k : ReqKind) (l : LinkNo) (tag : Byte) (body : List Byte) (owner : State → State) (s : State) :
    ∃ t, serve k l tag body owner s = .next t := by
  unfold serve
  split
  · exact ⟨s, rfl⟩
  · split
    · exact ⟨_, rfl⟩
    · exact ⟨_, rfl⟩

theorem outcome_ite_next (p : Prop) [Decidable p] (s t : State) :
    ∃ u, (if p then Host.Outcome.next t else .next s : Host.Outcome State Fault Refusal) = .next u := by
  split
  · exact ⟨t, rfl⟩
  · exact ⟨s, rfl⟩

theorem exec_next (c : Instr) (s : State) : ∃ t, exec c s = .next t := by
  cases request : requestOf c with
  | some r =>
    obtain ⟨k, l, tag, body⟩ := r
    rw [exec_request c k l tag body s request]
    exact serve_next k l tag body _ s
  | none =>
    cases c with
    | powerOn => exact ⟨_, rfl⟩
    | arrivalDeadlineExpiry g l =>
      show ∃ t, execArrivalDeadlineExpiry g l s = .next t
      unfold execArrivalDeadlineExpiry
      split
      · exact outcome_ite_next _ _ _
      · exact ⟨s, rfl⟩
    | frameTransmitStart l =>
      show ∃ t, execFrameTransmitStart l s = .next t
      unfold execFrameTransmitStart
      split
      · exact outcome_ite_next _ _ _
      · exact ⟨s, rfl⟩
    | unknownKindFrame l kind tag body =>
      show ∃ t, execUnknownKindFrame l kind tag body s = .next t
      unfold execUnknownKindFrame
      split
      · exact ⟨_, rfl⟩
      · exact ⟨s, rfl⟩
    | resetNAssert | resetNRelease | uptimeTick | leaseDeadlineExpiry | lockWaitDeadlineExpiry
    | convertWaitDeadlineExpiry | watchWaitDeadlineExpiry | holdDeadlineExpiry | gapTimerExpiry | lengthFault
    | stopBitFault | frameReceived | breakEnd | entryTransmitted | characterReceivedWhole | startEdge =>
      exact outcome_ite_next _ _ _
    | openSession | closeSession | renew | status | acquire | release | convert | cancel | watch | query | arrive
    | setLink | setWindow | setGroup | setFloor | start | restart | profile | evict => simp [requestOf] at request

theorem pending_cleared (u : State) : (clearGroups (clearPool u)).pending = u.pending := rfl

theorem pending_atInstant (u : State) (now : Instant) : (u.atInstant now).pending = u.pending := rfl

theorem Move.pending {s t : State} (h : Move s t) : t.pending = s.pending := by
  cases h with
  | work h =>
    obtain ⟨⟨_, _, _, _, _, _, _, _, pending⟩, _⟩ := h.frame
    exact pending
  | take l f taken =>
    obtain ⟨rest, turn, _, _, _, _, rfl⟩ := taken
    rfl
  | restart =>
    obtain ⟨_, _, _, _, _, _, _, _, pending⟩ := endSessions_control { s with service := .setup }
    exact (pending_cleared _).trans pending
  | opens | renew | close | lapse | write | start => rfl

theorem Moves.pending {s t : State} (h : Moves s t) : t.pending = s.pending :=
  Moves.keeps (P := fun u => u.pending = s.pending) (fun m before => m.pending.trans before) h rfl

theorem pending_latchStraps (straps : Straps) (s : State) : (latchStraps straps s).pending = s.pending := by
  unfold latchStraps
  split <;> rfl

theorem pending_exec {c : Instr} {s t : State} (h : exec c s = .next t) : t.pending = s.pending := by
  by_cases working : isWorking c
  · exact Moves.pending (moves_exec working h)
  · cases c with
    | powerOn msel astart =>
      rw [← Host.Outcome.next.inj h]
      exact pending_latchStraps _ _
    | resetNAssert =>
      obtain same | ⟨_, same⟩ : t = s ∨ _ ∧ t = resetValues s := by
        have h : (if s.resetHeld then Host.Outcome.next s else .next (resetValues s) :
            Host.Outcome State Fault Refusal) = .next t := h
        split at h
        · exact .inl (Host.Outcome.next.inj h).symm
        · next low => exact .inr ⟨low, (Host.Outcome.next.inj h).symm⟩
      · rw [same]
      · rw [same]; rfl
    | resetNRelease msel astart =>
      obtain same | ⟨_, same⟩ := outcome_ite h
      · rw [same]
      · rw [same, pending_latchStraps]
    | uptimeTick =>
      have h : (if s.resetHeld then Host.Outcome.next s else .next ((deliverOverdue s.nextMillisecond s).atInstant
          s.nextMillisecond) : Host.Outcome State Fault Refusal) = .next t := h
      split at h
      · rw [← Host.Outcome.next.inj h]
      · rw [← Host.Outcome.next.inj h]
        exact (pending_atInstant _ _).trans (Moves.pending (moves_deliverOverdue s.nextMillisecond s))
    | _ => exact absurd trivial working

/-- Settles O2: each arm of `exec` ends in a next state, and the moves of the part leave the queue alone. -/
theorem everyCommandCompletes : Obligations.EveryCommandCompletes := by
  intro c s
  obtain ⟨t, next⟩ := exec_next c s
  exact ⟨t, next, pending_exec next⟩

/-! ### Resets -/

theorem freshlyReset_of_same {t : State} (uptime : t.uptime = 0) (clkin : t.clkin = 0) (waitList : t.waitList = [])
    (watchList : t.watchList = []) (rotation : t.rotation = Rotation.atReset) (profile : t.profile = Profile.atReset)
    (links : t.links = State.reset.links) (sessions : t.sessions = State.reset.sessions)
    (groups : t.groups = State.reset.groups) : FreshlyReset t := by
  refine ⟨uptime, clkin, waitList, watchList, rotation, fun l => ?_, fun l k => ?_, fun g => ?_, fun l => ?_,
    fun l => ?_, fun g => ?_⟩
  · simp [State.settings, profile, Profile.atReset, Vector.get_eq_getElem, LinkSettings.atReset]
  · simp only [State.windows, profile, Profile.atReset, Vector.get_eq_getElem, Vector.getElem_replicate]
    revert k
    decide
  · simp [State.groupDef, profile, Profile.atReset, Vector.get_eq_getElem, GroupDef.atReset]
  · simp [State.link, links, State.reset, Vector.get_eq_getElem, LinkUnit.atReset, Counters.zero]
  · simp [State.session, sessions, State.reset, Vector.get_eq_getElem, Session.atReset]
  · simp [State.group, groups, State.reset, Vector.get_eq_getElem, Group.atReset]

theorem freshlyReset_latchStraps (straps : Straps) {s : State} (h : FreshlyReset s) :
    FreshlyReset (latchStraps straps s) := by
  unfold latchStraps
  split
  · exact h
  · exact h

theorem autostart_iff (msel : Fin 8) (astart : Bool) :
    Straps.autostart { msel := msel, astart := astart } = true ↔ Autostarts msel astart := by
  simp only [Straps.autostart, Straps.management, Autostarts, Bool.or_eq_true]
  split
  · next low => simp; omega
  · next high => simp; omega

theorem latchStraps_of_autostart {msel : Fin 8} {astart : Bool} (starts : Autostarts msel astart) (s : State) :
    latchStraps { msel := msel, astart := astart } s =
      { s with straps := { msel := msel, astart := astart }, epoch := s.epoch + 1, service := .service } := by
  simp [latchStraps, (autostart_iff msel astart).mpr starts, startService]

theorem latchStraps_of_not_autostart {msel : Fin 8} {astart : Bool} (waits : ¬ Autostarts msel astart) (s : State) :
    latchStraps { msel := msel, astart := astart } s = { s with straps := { msel := msel, astart := astart } } := by
  have off : ¬ Straps.autostart { msel := msel, astart := astart } = true := (autostart_iff msel astart).not.mpr waits
  simp [latchStraps, off]

theorem straps_latchStraps (straps : Straps) (s : State) :
    (latchStraps straps s).straps = straps ∧ (latchStraps straps s).resetHeld = s.resetHeld := by
  unfold latchStraps
  split <;> exact ⟨rfl, rfl⟩

/-- Settles O3: the values of power-on, and those of `latchStraps` with and without autostart. -/
theorem powerOnClearsAll : Obligations.PowerOnClearsAll := by
  intro msel astart s
  obtain ⟨records, tokens, -⟩ := latchStraps_pool { msel := msel, astart := astart } { State.reset with pending := s.pending }
  obtain ⟨straps, high⟩ := straps_latchStraps { msel := msel, astart := astart } { State.reset with pending := s.pending }
  refine ⟨_, rfl, ?fresh, tokens, fun i => ?record, high, straps, fun low => ?some, fun high => ?none, fun starts => ?on,
    fun waits => ?off⟩
  case fresh =>
    exact freshlyReset_latchStraps _ (freshlyReset_of_same rfl rfl rfl rfl rfl rfl rfl rfl rfl)
  case record =>
    rw [State.record, records]
    exact record_reset i
  case some => simp [State.management, straps, Straps.management, low]
  case none => simp [State.management, straps, Straps.management, high]
  case on =>
    rw [latchStraps_of_autostart starts]
    exact ⟨rfl, rfl, rfl⟩
  case off =>
    rw [latchStraps_of_not_autostart waits]
    exact ⟨rfl, rfl, rfl⟩

theorem afterReset_of_used {r : Record} (used : r.state ≠ .free) : r.afterReset = freed r := by
  simp [Record.afterReset, used, freed]

theorem afterReset_of_free {r : Record} (free : r.state = .free) : r.afterReset = r := by
  simp [Record.afterReset, free]

theorem record_resetValues (s : State) (i : RecNo) : (resetValues s).record i = (s.record i).afterReset := by
  simp [resetValues, State.record]

/-- Settles O4: the values of the falling edge. -/
theorem resetNAssertSetsValues : Obligations.ResetNAssertSetsValues := by
  intro s high
  refine ⟨resetValues s, ?next, freshlyReset_of_same rfl rfl rfl rfl rfl rfl rfl rfl rfl, rfl, rfl, rfl, rfl, rfl, rfl,
    fun i free => ?kept, fun i used => ?raised⟩
  case next =>
    show execResetNAssert s = _
    simp [execResetNAssert, high]
  case kept => rw [record_resetValues, afterReset_of_free free]
  case raised => rw [record_resetValues, afterReset_of_used used]

/-- Settles O5: the release is `latchStraps` on the state with the pin high. -/
theorem resetNReleaseLatchesStraps : Obligations.ResetNReleaseLatchesStraps := by
  intro msel astart s low
  have release : exec (.resetNRelease msel astart) s =
      .next (latchStraps { msel := msel, astart := astart } { s with resetHeld := false }) := by
    show execResetNRelease msel astart s = _
    simp [execResetNRelease, low]
  exact ⟨fun starts => release.trans (by rw [latchStraps_of_autostart starts]),
    fun waits => release.trans (by rw [latchStraps_of_not_autostart waits])⟩

theorem take_of_low (l : LinkNo) (f : Frame) {s : State} (low : s.resetHeld = true) : take l f s = none := by
  simp [take, low]

theorem serve_of_low (k : ReqKind) (l : LinkNo) (tag : Byte) (body : List Byte) (owner : State → State) {s : State}
    (low : s.resetHeld = true) : serve k l tag body owner s = .next s := by
  simp [serve, take_of_low l _ low]

theorem receives_of_low {s : State} (low : s.resetHeld = true) (l : LinkNo) : s.receives l = false := by
  simp [State.receives, low]

theorem expires_of_low {s : State} (low : s.resetHeld = true) (d : Option Instant) : s.expires d = false := by
  simp [State.expires, low]

/-- Settles O6: no frame is taken, no deadline expires and no receiver works while the pin is low. -/
theorem resetHeldFreezesThePart : Obligations.ResetHeldFreezesThePart := by
  intro c s low notPower notRelease
  cases request : requestOf c with
  | some r =>
    obtain ⟨k, l, tag, body⟩ := r
    rw [exec_request c k l tag body s request, serve_of_low k l tag body _ low]
  | none =>
    cases c with
    | powerOn msel astart => exact absurd rfl (notPower msel astart)
    | resetNRelease msel astart => exact absurd rfl (notRelease msel astart)
    | resetNAssert =>
      show execResetNAssert s = _
      simp [execResetNAssert, low]
    | uptimeTick =>
      show execUptimeTick s = _
      simp [execUptimeTick, low]
    | unknownKindFrame l kind tag body =>
      show execUnknownKindFrame l kind tag body s = _
      simp [execUnknownKindFrame, take_of_low l _ low]
    | entryTransmitted l =>
      show execEntryTransmitted l s = _
      simp [execEntryTransmitted, low]
    | arrivalDeadlineExpiry g l =>
      show execArrivalDeadlineExpiry g l s = _
      unfold execArrivalDeadlineExpiry
      split
      · simp [expires_of_low low]
      · rfl
    | frameTransmitStart l =>
      show execFrameTransmitStart l s = _
      unfold execFrameTransmitStart
      split
      · simp [receives_of_low low]
      · rfl
    | leaseDeadlineExpiry l =>
      show execLeaseDeadlineExpiry l s = _
      simp [execLeaseDeadlineExpiry, expires_of_low low]
    | lockWaitDeadlineExpiry i =>
      show execLockWaitDeadlineExpiry i s = _
      simp [execLockWaitDeadlineExpiry, expires_of_low low]
    | convertWaitDeadlineExpiry i =>
      show execConvertWaitDeadlineExpiry i s = _
      simp [execConvertWaitDeadlineExpiry, expires_of_low low]
    | watchWaitDeadlineExpiry i =>
      show execWatchWaitDeadlineExpiry i s = _
      simp [execWatchWaitDeadlineExpiry, expires_of_low low]
    | holdDeadlineExpiry i =>
      show execHoldDeadlineExpiry i s = _
      simp [execHoldDeadlineExpiry, expires_of_low low]
    | gapTimerExpiry l =>
      show execGapTimerExpiry l s = _
      simp [execGapTimerExpiry, receives_of_low low]
    | lengthFault l v =>
      show execLengthFault l v s = _
      simp [execLengthFault, receives_of_low low]
    | stopBitFault l v =>
      show execStopBitFault l v s = _
      simp [execStopBitFault, receives_of_low low]
    | frameReceived l v =>
      show execFrameReceived l v s = _
      simp [execFrameReceived, receives_of_low low]
    | breakEnd l =>
      show execBreakEnd l s = _
      simp [execBreakEnd, receives_of_low low]
    | characterReceivedWhole l v =>
      show execCharacterReceivedWhole l v s = _
      simp [execCharacterReceivedWhole, receives_of_low low]
    | startEdge l =>
      show execStartEdge l s = _
      simp [execStartEdge, receives_of_low low]
    | openSession | closeSession | renew | status | acquire | release | convert | cancel | watch | query | arrive
    | setLink | setWindow | setGroup | setFloor | start | restart | profile | evict => simp [requestOf] at request

end Sys2Proof.Machine
end


section
/-! PROOFS. What the commands leave of the token counter, the control state and the sessions, and SET_FLOOR and START. -/

namespace Sys2Proof.Machine

open Sys2Proof.Safety

/-! ### The commands case by case -/

/-- What a command other than POWER_ON and the moves of RESET_N comes to: nothing, a request refused or accepted, another
event, or a tick. -/
inductive Came (c : Instr) (s : State) : State → Prop where
  | nothing : Came c s s
  | refused (k : ReqKind) (l : LinkNo) (tag : Byte) (body : List Byte) (u : State) (r : Reason) (d : Byte)
      (request : requestOf c = some (k, l, tag, body))
      (taken : TakesFrame l { kind := k.code, tag := tag, body := body } s u) : Came c s (refuse l tag r d u)
  | accepted (k : ReqKind) (l : LinkNo) (tag : Byte) (body : List Byte) (u : State) (m : Message) (adopts : Bool)
      (v : State) (request : requestOf c = some (k, l, tag, body))
      (taken : TakesFrame l { kind := k.code, tag := tag, body := body } s u) (pass : PassesChecks k l tag body u)
      (accepted : Accepted l tag body u k m adopts v) :
      Came c s (queueFree l { tag := tag, msg := m, adopts := adopts } v)
  | event (t : State) (event : Event s c t) : Came c s t
  | tick (name : c = .uptimeTick) (high : s.resetHeld = false) :
      Came c s ((deliverOverdue s.nextMillisecond s).atInstant s.nextMillisecond)

theorem came_exec {c : Instr} {s t : State} (power : ∀ m a, c ≠ .powerOn m a) (falling : c ≠ .resetNAssert)
    (rising : ∀ m a, c ≠ .resetNRelease m a) (h : exec c s = .next t) : Came c s t := by
  cases request : requestOf c with
  | some r =>
    obtain ⟨k, l, tag, body⟩ := r
    rcases exec_request_cases request h with same | ⟨u, taken, ⟨r, d, same⟩ | ⟨pass, m, adopts, v, accepted, same⟩⟩
    · rw [same]; exact .nothing
    · rw [same]; exact .refused k l tag body u r d request taken
    · rw [same]; exact .accepted k l tag body u m adopts v request taken pass accepted
  | none =>
    by_cases working : isWorking c
    · rcases exec_event_cases working request h with same | event
      · rw [same]; exact .nothing
      · exact .event t event
    cases c with
    | powerOn m a => exact absurd rfl (power m a)
    | resetNAssert => exact absurd rfl falling
    | resetNRelease m a => exact absurd rfl (rising m a)
    | uptimeTick =>
      change execUptimeTick s = .next t at h
      unfold execUptimeTick at h
      split at h
      · rw [← Host.Outcome.next.inj h]; exact .nothing
      · next high =>
        rw [← Host.Outcome.next.inj h]
        exact .tick rfl (Bool.eq_false_iff.2 high)
    | _ => exact absurd trivial working

/-! ### The token counter -/

theorem tokens_endSessions (s : State) : (endSessions s).tokens = s.tokens := by
  have each (t : State) (l : LinkNo) : (sessionAtRestart t l).tokens = t.tokens := by
    rw [sessionAtRestart_eq]
    rfl
  exact foldl_keeps (P := fun t => t.tokens = s.tokens) sessionAtRestart (fun t l same => (each t l).trans same) _ rfl

theorem tokens_cleared (u : State) : (clearGroups (clearPool u)).tokens = u.tokens := rfl

theorem Move.tokens_le {s t : State} (h : Move s t) : s.tokens ≤ t.tokens := by
  cases h with
  | work h =>
    obtain ⟨-, -, raised⟩ := h.frame
    exact raised
  | take l f taken =>
    obtain ⟨rest, turn, _, _, _, _, rfl⟩ := taken
    exact BitVec.le_refl _
  | restart => exact ((tokens_cleared _).trans (tokens_endSessions _)).symm ▸ BitVec.le_refl _
  | opens | renew | close | lapse | write | start => exact BitVec.le_refl _

theorem Moves.tokens_le {s t : State} (h : Moves s t) : s.tokens ≤ t.tokens :=
  Moves.keeps (P := fun u => s.tokens ≤ u.tokens) (fun m before => BitVec.le_trans before m.tokens_le) h
    (BitVec.le_refl _)

theorem tokens_atInstant (u : State) (now : Instant) : (u.atInstant now).tokens = u.tokens := rfl

/-- Settles O50: no move of the part lowers the counter, and RESET_N keeps it. -/
theorem tokenCounterNeverDecreases : Obligations.TokenCounterNeverDecreases := by
  intro c s t notPower h
  by_cases working : isWorking c
  · exact Moves.tokens_le (moves_exec working h)
  cases c with
  | powerOn m a => exact absurd rfl (notPower m a)
  | resetNAssert =>
    change execResetNAssert s = .next t at h
    unfold execResetNAssert at h
    split at h
    · rw [← Host.Outcome.next.inj h]; exact BitVec.le_refl s.tokens
    · rw [← Host.Outcome.next.inj h]; exact BitVec.le_refl s.tokens
  | resetNRelease m a =>
    obtain same | ⟨-, same⟩ := outcome_ite h
    · rw [same]; exact BitVec.le_refl s.tokens
    · obtain ⟨-, tokens, -⟩ := latchStraps_pool { msel := m, astart := a } { s with resetHeld := false }
      rw [same, tokens]
      exact BitVec.le_refl s.tokens
  | uptimeTick =>
    change execUptimeTick s = .next t at h
    unfold execUptimeTick at h
    split at h
    · rw [← Host.Outcome.next.inj h]; exact BitVec.le_refl s.tokens
    · rw [← Host.Outcome.next.inj h, tokens_atInstant]
      exact Moves.tokens_le (moves_deliverOverdue s.nextMillisecond s)
  | _ => exact absurd trivial working

/-! ### Straps, service state, epoch, uptime and profile -/

/-- The state that only resets, services and settings change. -/
def State.control (s : State) : Bool × Straps × Service × Half × Word × Profile :=
  (s.resetHeld, s.straps, s.service, s.epoch, s.uptime, s.profile)

theorem control_of_sameControl {s t : State} (h : SameControl s t) : t.control = s.control := by
  obtain ⟨held, straps, service, epoch, uptime, -, profile, -, -⟩ := h
  simp only [State.control, held, straps, service, epoch, uptime, profile]

theorem Works.control {s t : State} (h : Works s t) : t.control = s.control := control_of_sameControl h.frame.1

theorem control_putSessState (l : LinkNo) (x : SessState) (s : State) : (putSessState l x s).control = s.control := rfl

theorem control_putLink (s : State) (l : LinkNo) (u : LinkUnit) : (s.putLink l u).control = s.control := rfl

theorem control_takesFrame {l : LinkNo} {f : Frame} {s t : State} (taken : TakesFrame l f s t) :
    t.control = s.control := by
  obtain ⟨rest, turn, _, _, _, _, rfl⟩ := taken
  rfl

theorem control_lapse (l : LinkNo) (cause : EndCause) (s : State) : (lapse l cause s).control = s.control :=
  (Works.control (works_lapse l cause s)).trans (control_putSessState l .lapsed s)

theorem control_closeSequence (l : LinkNo) (s : State) : (closeSequence l s).control = s.control :=
  (Works.control (works_closeSequence l s)).trans
    ((control_putSessState l .closed _).trans (Works.control (works_tagsCancelled l s)))

theorem control_renewLease (l : LinkNo) (s : State) : (renewLease l s).control = s.control := by
  unfold renewLease
  split <;> rfl

theorem control_rxEffect (l : LinkNo) (e : RxEvent) (s : State) : (rxEffect l e s).control = s.control := by
  have admits (f : Frame) : (admitFrame l f s).control = s.control := by
    unfold admitFrame
    dsimp only
    split
    · exact control_renewLease l s
    · exact (Works.control (works_countFault l .discard _)).trans (control_renewLease l s)
  unfold rxEffect
  split
  · rfl
  · exact Works.control (works_countFault l .length s)
  · split
    · rfl
    · split
      · exact admits _
      · exact Works.control (works_countFault l .check s)

theorem control_endCharacter (l : LinkNo) (v : Byte) (faulty : Bool) (s : State) :
    (endCharacter l v faulty s).control = s.control := control_rxEffect l _ _

theorem control_sessionAtBreak (l : LinkNo) (s : State) : (sessionAtBreak l s).control = s.control := by
  unfold sessionAtBreak
  split
  · exact (Works.control ((works_dropTags l _).trans (works_failureEnd l _))).trans (control_putSessState l .closed s)
  · rfl
  · rfl

theorem Event.control {c : Instr} {s t : State} (h : Event s c t) : t.control = s.control := by
  cases h with
  | lease l => exact control_lapse l _ s
  | lockWait i => exact Works.control (works_expireWait i s)
  | convertWait i => exact Works.control (works_expireWait i s)
  | watchWait i => exact Works.control (works_expireWait i s)
  | hold i => exact Works.control (works_expireHold i s)
  | arrival g a => exact Works.control (works_expireArrival g a s)
  | gap l => exact Works.control ((works_lineReturned l s).trans (works_runGapTimer l _ _))
  | character _ l v => exact control_endCharacter l v false s
  | stopBit l v =>
    exact (control_endCharacter l v true _).trans (Works.control (works_countFault l .framing s))
  | breakEnd l =>
    exact (control_sessionAtBreak l _).trans (Works.control (works_clearLink l s))
  | transmitStart => rfl
  | transmitted l => exact Works.control (works_runTransmitter l _ s)
  | startEdge l => exact (control_putLink _ l _).trans (Works.control (works_lineReturned l s))
  | unknownKind l kind tag body u taken =>
    exact (Works.control (works_refuse l tag _ _ u)).trans (control_takesFrame taken)

/-- The setting requests. -/
def ReqKind.setting (k : ReqKind) : Prop := k = .setLink ∨ k = .setWindow ∨ k = .setGroup

theorem Accepted.control {l : LinkNo} {tag : Byte} {body : List Byte} {s v : State} {k : ReqKind} {m : Message}
    {adopts : Bool} (h : Accepted l tag body s k m adopts v) (keeps : ¬ k.setting) (notStart : k ≠ .start)
    (notRestart : k ≠ .restart) : v.control = s.control := by
  cases h with
  | opens => exact (Works.control (works_reserve l _)).trans (control_putSessState l _ s)
  | closesLapsed => rfl
  | closesOpen => exact control_closeSequence l s
  | renews | partStatus | findsFree | queries | reads => rfl
  | linkStatus | setsFloor => rfl
  | holds => exact (Works.control (works_reserveHold l _ _)).trans rfl
  | waits =>
    exact (Works.control (works_reserveHold l _ _)).trans ((Works.control (works_openTag l tag _ _)).trans rfl)
  | releases i =>
    exact Works.control (((works_concludeConversion i s).trans (works_freeHolding i _)).trans (works_grantScan _))
  | downgrades => exact (Works.control (works_grantScan _)).trans rfl
  | upgrades => rfl
  | converts => exact (Works.control (works_openTag l tag _ _)).trans rfl
  | cancels x => exact Works.control ((works_cancelEntry l x s).trans (works_scanAfterCancel x.ref _))
  | watches => exact (Works.control (works_openTag l tag _ _)).trans rfl
  | completes g => exact Works.control (works_passRound g _ s)
  | arrives => exact (Works.control (works_openTag l tag _ _)).trans rfl
  | setsLink => exact absurd (.inl rfl) keeps
  | setsWindow => exact absurd (.inr (.inl rfl)) keeps
  | setsGroup => exact absurd (.inr (.inr rfl)) keeps
  | starts => exact absurd rfl notStart
  | restarts => exact absurd rfl notRestart
  | evicts n => exact control_lapse n _ s

theorem control_eq_iff (s t : State) : t.control = s.control ↔ t.resetHeld = s.resetHeld ∧ t.straps = s.straps ∧
    t.service = s.service ∧ t.epoch = s.epoch ∧ t.uptime = s.uptime ∧ t.profile = s.profile := by
  simp only [State.control, Prod.mk.injEq]

theorem works_writeLink (n : LinkNo) (new : LinkSettings) (s : State) :
    Works { s with profile := { s.profile with links := s.profile.links.set n new } } (writeLink n new s) := by
  have switched (t : State) (off on : Bool) :
      Works t (if off then disableLink n t else if on then enableLink n t else t) := by
    split
    · exact works_disableLink n t
    · split
      · exact works_enableLink n t
      · exact .refl
  unfold writeLink
  dsimp only
  split
  · exact switched _ _ _
  · exact (switched _ _ _).trans (works_adopt n _)

/-- A setting request writes the profile and, of the state of `State.control`, nothing else. -/
theorem Accepted.control_of_setting {l : LinkNo} {tag : Byte} {body : List Byte} {s v : State} {k : ReqKind}
    {m : Message} {adopts : Bool} (h : Accepted l tag body s k m adopts v) (setting : k.setting) :
    v.resetHeld = s.resetHeld ∧ v.straps = s.straps ∧ v.service = s.service ∧ v.epoch = s.epoch ∧
      v.uptime = s.uptime := by
  cases h with
  | setsLink q n =>
    have written (p : Profile) {u : State} (works : Works { s with profile := p } u) : u.resetHeld = s.resetHeld ∧
        u.straps = s.straps ∧ u.service = s.service ∧ u.epoch = s.epoch ∧ u.uptime = s.uptime := by
      obtain ⟨held, straps, service, epoch, uptime, -⟩ := (control_eq_iff _ _).1 (Works.control works)
      exact ⟨held, straps, service, epoch, uptime⟩
    exact written _ (works_writeLink n q.settings s)
  | setsWindow => exact ⟨rfl, rfl, rfl, rfl, rfl⟩
  | setsGroup => exact ⟨rfl, rfl, rfl, rfl, rfl⟩
  | _ => rcases setting with h | h | h <;> cases h

end Sys2Proof.Machine
end


section
/-! PROOFS. Which commands change the control state and the sessions, and SET_FLOOR and START. -/

namespace Sys2Proof.Machine

open Sys2Proof.Safety

/-! ### The control state -/

theorem control_queueFree (l : LinkNo) (e : OutEntry) (s : State) : (queueFree l e s).control = s.control := rfl

theorem control_cleared (u : State) : (clearGroups (clearPool u)).control = u.control := rfl

theorem control_restarted (l : LinkNo) (e : OutEntry) (s : State) :
    (queueFree l e (clearGroups (clearPool (endSessions s)))).control = s.control :=
  (control_queueFree l e _).trans ((control_cleared _).trans (control_of_sameControl (endSessions_control s)))

theorem control_tick (now later : Instant) (s : State) :
    ∃ uptime, ((deliverOverdue later s).atInstant now).control =
      (s.resetHeld, s.straps, s.service, s.epoch, uptime, s.profile) := by
  have delivered : (deliverOverdue later s).control = s.control :=
    deliverOverdue_keeps (P := fun t => t.control = s.control) later
      (fun t l _ same => (control_lapse l _ t).trans same)
      (fun t i _ same => (Works.control (works_expireWait i t)).trans same)
      (fun t i _ same => (Works.control (works_expireHold i t)).trans same)
      (fun t g a _ _ same => (Works.control (works_expireArrival g a t)).trans same) rfl
  obtain ⟨held, straps, service, epoch, -, profile⟩ := (control_eq_iff _ _).1 delivered
  have now_ (u : State) : (u.atInstant now).control = (u.resetHeld, u.straps, u.service, u.epoch, now.ms, u.profile) := rfl
  exact ⟨now.ms, by rw [now_, held, straps, service, epoch, profile]⟩

/-- The command of a request. -/
def ReqKind.command (k : ReqKind) (l : LinkNo) (tag : Byte) (body : List Byte) : Instr :=
  match k with
  | .openSession => .openSession l tag body
  | .closeSession => .closeSession l tag body
  | .renew => .renew l tag body
  | .status => .status l tag body
  | .acquire => .acquire l tag body
  | .release => .release l tag body
  | .convert => .convert l tag body
  | .cancel => .cancel l tag body
  | .watch => .watch l tag body
  | .query => .query l tag body
  | .arrive => .arrive l tag body
  | .setLink => .setLink l tag body
  | .setWindow => .setWindow l tag body
  | .setGroup => .setGroup l tag body
  | .setFloor => .setFloor l tag body
  | .start => .start l tag body
  | .restart => .restart l tag body
  | .profile => .profile l tag body
  | .evict => .evict l tag body

theorem command_of_request {c : Instr} {k : ReqKind} {l : LinkNo} {tag : Byte} {body : List Byte}
    (request : requestOf c = some (k, l, tag, body)) : c = k.command l tag body := by
  cases c <;> cases request <;> rfl

theorem name_of_setting {c : Instr} {k : ReqKind} {l : LinkNo} {tag : Byte} {body : List Byte}
    (request : requestOf c = some (k, l, tag, body)) (setting : k.setting) :
    ∃ l g b, c = .setLink l g b ∨ c = .setWindow l g b ∨ c = .setGroup l g b := by
  refine ⟨l, tag, body, ?_⟩
  rcases setting with rfl | rfl | rfl
  · exact .inl (command_of_request request)
  · exact .inr (.inl (command_of_request request))
  · exact .inr (.inr (command_of_request request))

theorem needsSetup_of_setting {k : ReqKind} (setting : k.setting) : k.needsSetup = true := by
  rcases setting with rfl | rfl | rfl <;> rfl

/-- Settles O51: only settings write the profile, only a start of service the epoch, only it and RESTART the service state,
only the tick the uptime. -/
theorem controlStateChangesOnlyBy : Obligations.ControlStateChangesOnlyBy := by
  intro c s t notPower notRelease notAssert h
  have same {u : State} (kept : u.control = s.control) :
      u.straps = s.straps ∧ u.resetHeld = s.resetHeld ∧
      (u.profile ≠ s.profile →
        s.service = .setup ∧ ∃ l g b, c = .setLink l g b ∨ c = .setWindow l g b ∨ c = .setGroup l g b) ∧
      (u.epoch ≠ s.epoch → u.epoch = s.epoch + 1 ∧ ∃ l g b, c = .start l g b) ∧
      (u.service ≠ s.service → ∃ l g b, c = .start l g b ∨ c = .restart l g b) ∧
      (u.uptime ≠ s.uptime → c = .uptimeTick) := by
    obtain ⟨held, straps, service, epoch, uptime, profile⟩ := (control_eq_iff _ _).1 kept
    exact ⟨straps, held, (absurd profile ·), (absurd epoch ·), (absurd service ·), (absurd uptime ·)⟩
  cases came_exec notPower notAssert notRelease h with
  | nothing => exact same rfl
  | refused k l tag body u r d request taken =>
    exact same ((Works.control (works_refuse l tag r d u)).trans (control_takesFrame taken))
  | event _ event => exact same event.control
  | tick name =>
    obtain ⟨uptime, kept⟩ := control_tick s.nextMillisecond s.nextMillisecond s
    simp only [State.control, Prod.mk.injEq] at kept
    obtain ⟨held, straps, service, epoch, -, profile⟩ := kept
    exact ⟨straps, held, (absurd profile ·), (absurd epoch ·), (absurd service ·), fun _ => name⟩
  | accepted k l tag body u m adopts v request taken pass accepted =>
    obtain ⟨held, straps, service, epoch, uptime, profile⟩ := (control_eq_iff _ _).1 (control_takesFrame taken)
    by_cases setting : k.setting
    · obtain ⟨held', straps', service', epoch', uptime'⟩ := accepted.control_of_setting setting
      obtain ⟨-, -, -, setup, -⟩ := pass
      exact ⟨straps'.trans straps, held'.trans held,
        fun _ => ⟨service.symm.trans (setup (needsSetup_of_setting setting)), name_of_setting request setting⟩,
        (absurd (epoch'.trans epoch) ·), (absurd (service'.trans service) ·), (absurd (uptime'.trans uptime) ·)⟩
    by_cases starts : k = .start
    · subst starts
      cases accepted
      exact ⟨straps, held, (absurd profile ·), fun _ => ⟨congrArg (· + 1) epoch, l, tag, body, command_of_request request⟩,
        fun _ => ⟨l, tag, body, .inl (command_of_request request)⟩, (absurd uptime ·)⟩
    by_cases restarts : k = .restart
    · subst restarts
      cases accepted
      obtain ⟨held', straps', -, epoch', uptime', profile'⟩ := (control_eq_iff _ _).1
        (control_restarted l { tag := tag, msg := .doneEmpty, adopts := false } { u with service := .setup })
      exact ⟨straps'.trans straps, held'.trans held, (absurd (profile'.trans profile) ·),
        (absurd (epoch'.trans epoch) ·), fun _ => ⟨l, tag, body, .inr (command_of_request request)⟩,
        (absurd (uptime'.trans uptime) ·)⟩
    · exact same ((control_queueFree l _ v).trans
        ((accepted.control setting starts restarts).trans (control_takesFrame taken)))

/-! ### The states of the sessions -/

/-- A move of session `n` in Figure 7-1, with the commands that make it. -/
inductive FigureMove (c : Instr) (n : LinkNo) (x y : Session) : Prop where
  | stays (same : y.state = x.state)
  | renews (before : x.isOpen = true) (after : y.isOpen = true)
  | opens (before : x.state = .closed) (after : y.isOpen = true) (name : ∃ g b, c = .openSession n g b)
  | closes (after : y.state = .closed)
      (name : c = .breakEnd n ∨ (∃ g b, c = .closeSession n g b) ∨ ∃ l g b, c = .restart l g b)
  | lapses (before : x.isOpen = true) (after : y.state = .lapsed)
      (name : c = .leaseDeadlineExpiry n ∨ c = .uptimeTick ∨ ∃ l g b, c = .evict l g b ∧ (byteAt b 0).toNat = n.val)

theorem isOpen_of_state {x y : Session} (same : y.state = x.state) : y.isOpen = x.isOpen := by
  simp only [Session.isOpen, same]

theorem not_isOpen_of_closed {x : Session} (closed : x.state = .closed) : x.isOpen = false := by
  simp only [Session.isOpen, closed]

theorem not_isOpen_of_lapsed {x : Session} (lapsed : x.state = .lapsed) : x.isOpen = false := by
  simp only [Session.isOpen, lapsed]

/-- What Figure 7-1 says of the three states. -/
theorem FigureMove.moves {c : Instr} {n : LinkNo} {x y : Session} (h : FigureMove c n x y) :
    (x.state = .closed → y.state ≠ .closed → y.isOpen = true ∧ ∃ g b, c = .openSession n g b) ∧
    (x.isOpen = true → y.isOpen = false →
      (y.state = .closed ∧ (c = .breakEnd n ∨ (∃ g b, c = .closeSession n g b) ∨ ∃ l g b, c = .restart l g b)) ∨
      (y.state = .lapsed ∧ (c = .leaseDeadlineExpiry n ∨ c = .uptimeTick ∨
        ∃ l g b, c = .evict l g b ∧ (byteAt b 0).toNat = n.val))) ∧
    (x.state = .lapsed → y.state ≠ .lapsed → y.state = .closed ∧
      (c = .breakEnd n ∨ (∃ g b, c = .closeSession n g b) ∨ ∃ l g b, c = .restart l g b)) := by
  cases h with
  | stays same =>
    refine ⟨fun closed other => absurd (same.trans closed) other, fun opened shut => ?_,
      fun lapsed other => absurd (same.trans lapsed) other⟩
    rw [isOpen_of_state same, opened] at shut
    cases shut
  | renews before after =>
    refine ⟨fun closed => ?_, fun _ shut => ?_, fun lapsed => ?_⟩
    · rw [not_isOpen_of_closed closed] at before; cases before
    · rw [after] at shut; cases shut
    · rw [not_isOpen_of_lapsed lapsed] at before; cases before
  | opens before after name =>
    refine ⟨fun _ _ => ⟨after, name⟩, fun _ shut => ?_, fun lapsed => ?_⟩
    · rw [after] at shut; cases shut
    · rw [before] at lapsed; cases lapsed
  | closes after name =>
    exact ⟨fun _ other => absurd after other, fun _ _ => .inl ⟨after, name⟩, fun _ _ => ⟨after, name⟩⟩
  | lapses before after name =>
    refine ⟨fun closed => ?_, fun _ _ => .inr ⟨after, name⟩, fun _ other => absurd after other⟩
    rw [not_isOpen_of_closed closed] at before
    cases before

theorem Works.state {s t : State} (h : Works s t) (n : LinkNo) : (t.session n).state = (s.session n).state :=
  h.frame.2.1 n

theorem state_putSessState (l n : LinkNo) (x : SessState) (s : State) :
    ((putSessState l x s).session n).state = if l = n then x else (s.session n).state := by
  rw [session_putSessState]
  split <;> rfl

theorem state_takesFrame {l : LinkNo} {f : Frame} {s t : State} (taken : TakesFrame l f s t) (n : LinkNo) :
    (t.session n).state = (s.session n).state := by
  obtain ⟨rest, turn, _, _, _, _, rfl⟩ := taken
  rfl

theorem state_lapse_session (l n : LinkNo) (cause : EndCause) (s : State) :
    ((lapse l cause s).session n).state = if l = n then .lapsed else (s.session n).state :=
  (Works.state (works_lapse l cause s) n).trans (state_putSessState l n .lapsed s)

theorem state_closeSequence (l n : LinkNo) (s : State) :
    ((closeSequence l s).session n).state = if l = n then .closed else (s.session n).state := by
  rw [Works.state (works_closeSequence l s) n, state_putSessState, Works.state (works_tagsCancelled l s) n]

theorem state_sessionAtBreak (l n : LinkNo) (s : State) :
    ((sessionAtBreak l s).session n).state = if l = n then .closed else (s.session n).state := by
  unfold sessionAtBreak
  split
  · exact (Works.state ((works_dropTags l _).trans (works_failureEnd l _)) n).trans (state_putSessState l n .closed s)
  · exact state_putSessState l n .closed s
  · next closed =>
    split
    · next same => rw [← same, closed]
    · rfl

/-- A renewal leaves the session of every link as it is or OPEN as before. -/
theorem renewLease_session (l n : LinkNo) (s : State) :
    ((renewLease l s).session n).state = (s.session n).state ∨
      (s.session n).isOpen = true ∧ ((renewLease l s).session n).isOpen = true := by
  unfold renewLease
  split
  · next d e opened =>
    rw [session_putSessState]
    split
    · next same => subst same; exact .inr ⟨Session.isOpen_of_opened opened, rfl⟩
    · exact .inl rfl
  · exact .inl rfl
  · exact .inl rfl

theorem endCharacter_session (l n : LinkNo) (v : Byte) (faulty : Bool) (s : State) :
    ((endCharacter l v faulty s).session n).state = (s.session n).state ∨
      (s.session n).isOpen = true ∧ ((endCharacter l v faulty s).session n).isOpen = true := by
  have effect (e : RxEvent) (t : State) : ((rxEffect l e t).session n).state = (t.session n).state ∨
      (t.session n).isOpen = true ∧ ((rxEffect l e t).session n).isOpen = true := by
    unfold rxEffect
    split
    · exact .inl rfl
    · exact .inl rfl
    · split
      · exact .inl rfl
      · split
        · unfold admitFrame
          dsimp only
          split
          · exact renewLease_session l n t
          · exact renewLease_session l n t
        · exact .inl rfl
  exact effect _ _

theorem FigureMove.of_renewal {c : Instr} {n : LinkNo} {x y : Session}
    (h : y.state = x.state ∨ x.isOpen = true ∧ y.isOpen = true) : FigureMove c n x y := by
  rcases h with same | ⟨before, after⟩
  · exact .stays same
  · exact .renews before after

theorem Event.figureMove {c : Instr} {s t : State} (h : Event s c t) (n : LinkNo) :
    FigureMove c n (s.session n) (t.session n) := by
  cases h with
  | lease l d armed =>
    by_cases same : l = n
    · subst same
      exact .lapses (isOpen_of_leaseDeadline armed) ((state_lapse_session l l .lapsed s).trans (if_pos rfl)) (.inl rfl)
    · exact .stays ((state_lapse_session l n .lapsed s).trans (if_neg same))
  | lockWait i => exact .stays (Works.state (works_expireWait i s) n)
  | convertWait i => exact .stays (Works.state (works_expireWait i s) n)
  | watchWait i => exact .stays (Works.state (works_expireWait i s) n)
  | hold i => exact .stays (Works.state (works_expireHold i s) n)
  | arrival g a => exact .stays (Works.state (works_expireArrival g a s) n)
  | gap l => exact .stays (Works.state ((works_lineReturned l s).trans (works_runGapTimer l _ _)) n)
  | character _ l v => exact .of_renewal (endCharacter_session l n v false s)
  | stopBit l v => exact .of_renewal (endCharacter_session l n v true (countFault l .framing s))
  | breakEnd l =>
    have cleared := Works.state (works_clearLink l s) n
    by_cases same : l = n
    · subst same
      exact .closes ((state_sessionAtBreak l l _).trans (if_pos rfl)) (.inl rfl)
    · exact .stays (((state_sessionAtBreak l n _).trans (if_neg same)).trans cleared)
  | transmitStart => exact .stays rfl
  | transmitted l => exact .stays (Works.state (works_runTransmitter l _ s) n)
  | startEdge l =>
    exact .stays ((congrArg Session.state (State.putLink_session _ l _ n)).trans
      (Works.state (works_lineReturned l s) n))
  | unknownKind l kind tag body u taken =>
    exact .stays ((Works.state (works_refuse l tag _ _ u) n).trans (state_takesFrame taken n))

/-- The requests that end or open sessions. -/
def ReqKind.session (k : ReqKind) : Prop := k = .openSession ∨ k = .closeSession ∨ k = .restart ∨ k = .evict

theorem Accepted.state_of_other {l : LinkNo} {tag : Byte} {body : List Byte} {s v : State} {k : ReqKind} {m : Message}
    {adopts : Bool} (h : Accepted l tag body s k m adopts v) (other : ¬ k.session) (n : LinkNo) :
    (v.session n).state = (s.session n).state := by
  have allocated (i : RecNo) (x : RecState) : ((allocate i l x s).session n).state = (s.session n).state := by
    simp only [allocate, State.session_putSession]
    split
    · next same => subst same; rfl
    · rfl
  cases h with
  | opens => exact absurd (.inl rfl) other
  | closesLapsed | closesOpen => exact absurd (.inr (.inl rfl)) other
  | restarts => exact absurd (.inr (.inr (.inl rfl))) other
  | evicts => exact absurd (.inr (.inr (.inr rfl))) other
  | renews | partStatus | findsFree | queries | reads => rfl
  | linkStatus | setsFloor | setsWindow | setsGroup | starts | upgrades => rfl
  | holds => exact (Works.state (works_reserveHold l _ _) n).trans (allocated _ _)
  | waits =>
    exact (Works.state (works_reserveHold l _ _) n).trans
      ((Works.state (works_openTag l tag _ _) n).trans (allocated _ _))
  | releases i =>
    exact Works.state (((works_concludeConversion i s).trans (works_freeHolding i _)).trans (works_grantScan _)) n
  | downgrades => exact Works.state (works_grantScan _) n
  | converts => exact Works.state (works_openTag l tag _ _) n
  | cancels x => exact Works.state ((works_cancelEntry l x s).trans (works_scanAfterCancel x.ref _)) n
  | watches => exact (Works.state (works_openTag l tag _ _) n).trans (allocated _ _)
  | completes g => exact Works.state (works_passRound g _ s) n
  | arrives => exact Works.state (works_openTag l tag _ _) n
  | setsLink q k => exact Works.state (works_writeLink k q.settings s) n

theorem Accepted.figureMove {c : Instr} {l : LinkNo} {tag : Byte} {body : List Byte} {s v : State} {k : ReqKind}
    {m : Message} {adopts : Bool} (request : requestOf c = some (k, l, tag, body))
    (h : Accepted l tag body s k m adopts v) (n : LinkNo) : FigureMove c n (s.session n) (v.session n) := by
  by_cases other : ¬ k.session
  · exact .stays (h.state_of_other other n)
  have name := command_of_request request
  cases h with
  | opens closed =>
    have state := (Works.state (works_reserve l (putSessState l
      (.opened (s.due (s.settings l).lease) s.epoch) s)) n).trans (state_putSessState l n _ s)
    by_cases same : l = n
    · subst same
      exact .opens closed (Session.isOpen_of_opened (state.trans (if_pos rfl))) ⟨tag, body, name⟩
    · exact .stays (state.trans (if_neg same))
  | closesLapsed =>
    by_cases same : l = n
    · subst same
      exact .closes ((state_putSessState l l .closed s).trans (if_pos rfl)) (.inr (.inl ⟨tag, body, name⟩))
    · exact .stays ((state_putSessState l n .closed s).trans (if_neg same))
  | closesOpen =>
    by_cases same : l = n
    · subst same
      exact .closes ((state_closeSequence l l s).trans (if_pos rfl)) (.inr (.inl ⟨tag, body, name⟩))
    · exact .stays ((state_closeSequence l n s).trans (if_neg same))
  | restarts =>
    refine .closes ?_ (.inr (.inr ⟨l, tag, body, command_of_request request⟩))
    rw [session_cleared, session_endSessions]
    exact endedSession_state _
  | evicts k target is_open =>
    by_cases same : k = n
    · subst same
      exact .lapses is_open ((state_lapse_session k k .evicted s).trans (if_pos rfl))
        (.inr (.inr ⟨l, tag, body, name, (linkOf_eq_some_iff _ _).1 target⟩))
    · exact .stays ((state_lapse_session k n .evicted s).trans (if_neg same))
  | _ => exact absurd other (by simp [ReqKind.session])

/-- The expiries that a tick delivers lapse OPEN sessions and leave the others. -/
theorem deliverOverdue_session (later : Instant) (n : LinkNo) (s : State) :
    ((deliverOverdue later s).session n).state = (s.session n).state ∨
      (s.session n).isOpen = true ∧ ((deliverOverdue later s).session n).state = .lapsed := by
  have works {t u : State} (works : Works t u) (before : (t.session n).state = (s.session n).state ∨
      (s.session n).isOpen = true ∧ (t.session n).state = .lapsed) : (u.session n).state = (s.session n).state ∨
      (s.session n).isOpen = true ∧ (u.session n).state = .lapsed := by rwa [Works.state works n]
  refine deliverOverdue_keeps (P := fun t => (t.session n).state = (s.session n).state ∨
      (s.session n).isOpen = true ∧ (t.session n).state = .lapsed) later (fun t l due before => ?_)
    (fun t i _ => works (works_expireWait i t)) (fun t i _ => works (works_expireHold i t))
    (fun t g a _ _ => works (works_expireArrival g a t)) (.inl rfl)
  rw [state_lapse_session]
  split
  · next same =>
    subst same
    obtain ⟨d, armed, -⟩ := overdue_armed due
    have is_open := isOpen_of_leaseDeadline armed
    rcases before with kept | ⟨opened, -⟩
    · exact .inr ⟨(isOpen_of_state kept).symm.trans is_open, rfl⟩
    · exact .inr ⟨opened, rfl⟩
  · exact before

theorem session_atInstant (u : State) (now : Instant) (n : LinkNo) : (u.atInstant now).session n = u.session n := rfl

/-- Settles O52: each command's moves of a session's state are those of Figure 7-1. -/
theorem sessionsMoveByFigure : Obligations.SessionsMoveByFigure := by
  intro c s t n notPower notAssert h
  refine FigureMove.moves ?_
  by_cases release : ∀ m a, c ≠ .resetNRelease m a
  · cases came_exec notPower notAssert release h with
    | nothing => exact .stays rfl
    | refused k l tag body u r d request taken =>
      exact .stays ((Works.state (works_refuse l tag r d u) n).trans (state_takesFrame taken n))
    | event _ event => exact event.figureMove n
    | accepted k l tag body u m adopts v request taken pass accepted =>
      have before : u.session n = s.session n := by
        obtain ⟨rest, turn, _, _, _, _, rfl⟩ := taken
        rfl
      have move := accepted.figureMove request n
      rwa [before] at move
    | tick name =>
      rw [session_atInstant]
      rcases deliverOverdue_session s.nextMillisecond n s with same | ⟨is_open, lapsed⟩
      · exact .stays same
      · exact .lapses is_open lapsed (.inr (.inl name))
  · push Not at release
    obtain ⟨m, a, rfl⟩ := release
    obtain same | ⟨-, same⟩ := outcome_ite h
    · rw [same]; exact .stays rfl
    · rw [same]
      refine .stays ?_
      unfold latchStraps
      split <;> rfl

/-! ### SET_FLOOR and START -/

/-- Settles O45: SET_FLOOR's answer is `setFloor_eq`, START's is its definition. -/
theorem setFloorAndStart : Obligations.SetFloorAndStart := by
  refine ⟨fun l tag body floor counter s t serves floor_eq counter_eq => ?_, fun l tag body s t serves => ?_⟩
  · obtain ⟨taken, -⟩ := id serves
    obtain ⟨-, -, tokens⟩ := pool_of_takesFrame taken
    refine (serve_eq .setFloor l tag body (setFloor l tag body) s t serves).trans ?_
    rw [setFloor_eq, tokens, floored, counter_eq, floor_eq]
  · obtain ⟨taken, -⟩ := id serves
    obtain ⟨-, -, -, epoch, -, -⟩ := (control_eq_iff _ _).1 (control_takesFrame taken)
    refine (serve_eq .start l tag body (start l tag body) s t serves).trans ?_
    show Host.Outcome.next (withReply l tag (.doneStart (t.epoch + 1)) { t with epoch := t.epoch + 1, service := .service }) = _
    rw [epoch]

end Sys2Proof.Machine
end


section
/-! PROOFS. The receiver: start edges, gap timers, characters, faults and complete frames (R136 to R140). -/

namespace Sys2Proof.Machine

open Sys2Proof.Safety

/-! ### Start edges and the gap timer -/

theorem receives_of_enabled {s : State} {l : LinkNo} (high : s.resetHeld = false) (enabled : (s.settings l).enabled = true) :
    s.receives l = true := by
  simp [State.receives, high, enabled]

theorem execStartEdge_eq {s : State} {l : LinkNo} (works : s.receives l = true) (between : (s.link l).inCharacter = false) :
    exec (.startEdge l) s = .next ((lineReturned l s).putLink l
      { (lineReturned l s).link l with inCharacter := true, gapTimer := .stopped }) := by
  show execStartEdge l s = _
  simp [execStartEdge, works, between]

/-- A start edge stops the timer wherever the limit has not run out on a low line. -/
theorem startEdge_within {s : State} {l : LinkNo} (within : ∀ k, (s.link l).gapTimer = .lineLow k → k < (s.link l).gapPeriods) :
    (lineReturned l s).putLink l { (lineReturned l s).link l with inCharacter := true, gapTimer := .stopped } =
      s.putLink l { s.link l with inCharacter := true, gapTimer := .stopped } := by
  cases timer : (s.link l).gapTimer with
  | stopped | running => simp [lineReturned, timer]
  | lineLow k =>
    have left : ¬ (s.link l).gapPeriods ≤ k := not_le.2 (within k timer)
    simp [lineReturned, timer, left]

/-- Settles O15: `lineReturned` tells the limit of a low line, `runOutGapTimer` what its running out does. -/
theorem gapTimerAndStartEdge : Obligations.GapTimerAndStartEdge := by
  intro l s high enabled
  have works := receives_of_enabled high enabled
  refine ⟨fun between within => ?_, fun k between low out => ?_, fun started => ?_⟩
  · rw [execStartEdge_eq works between, startEdge_within within]
    rfl
  · have out : (s.link l).gapPeriods ≤ k := out
    rw [execStartEdge_eq works between]
    simp only [lineReturned, low, out, if_true, runOutGapTimer_eq, State.link_putLink_self, State.putLink_putLink]
    rfl
  · refine (execGapTimerExpiry_eq l s works started).trans ?_
    rw [runOutGapTimer_eq]
    rfl

/-! ### Characters -/

theorem exec_character {s : State} {l : LinkNo} (works : s.receives l = true) (v : Byte) :
    exec (.characterReceivedWhole l v) s = .next (endCharacter l v false s) := by
  show execCharacterReceivedWhole l v s = _
  simp [execCharacterReceivedWhole, works]

/-- The link unit once a character has ended, before what the move brings about. -/
def afterCharacter (v : Byte) (faulty : Bool) (r : Receiver) (u : LinkUnit) : LinkUnit :=
  { u with
    receiver := r, inCharacter := false
    gapTimer := if r = .hunt then .stopped else if faulty && v ≠ 0 then .lineLow 0 else .running 0 }

theorem endCharacter_eq {l : LinkNo} {v : Byte} {faulty : Bool} {s : State} {r : Receiver} {e : RxEvent}
    (move : rxMove v faulty (s.link l).receiver = (r, e)) :
    endCharacter l v faulty s = rxEffect l e (s.putLink l (afterCharacter v faulty r (s.link l))) := by
  simp only [endCharacter, move, afterCharacter]

/-- The moves of Figure 9-2 that neither count a fault nor complete a frame, for a whole character and a faulty one. -/
inductive QuietMove (v : Byte) (faulty : Bool) : Receiver → Receiver → Prop where
  | mark : v = 0xA5 → faulty = false → QuietMove v faulty .hunt .length
  | ignored : v ≠ 0xA5 ∨ faulty = true → QuietMove v faulty .hunt .hunt
  | length : 2 ≤ v.toNat → v.toNat ≤ 58 → QuietMove v faulty .length (.body v [] faulty)
  | byte (n bytes p) : bytes.length + 1 < n.toNat → QuietMove v faulty (.body n bytes p) (.body n (bytes ++ [v]) (p || faulty))
  | last (n bytes p) : bytes.length + 1 = n.toNat →
      QuietMove v faulty (.body n bytes p) (.check n (bytes ++ [v]) none (p || faulty))
  | first (n bytes p) : QuietMove v faulty (.check n bytes none p) (.check n bytes (some v) (p || faulty))

theorem QuietMove.rxMove_eq {v : Byte} {faulty : Bool} {r r' : Receiver} (h : QuietMove v faulty r r') :
    rxMove v faulty r = (r', .quiet) := by
  cases h with
  | mark mark whole => simp [rxMove, mark, whole, Config.markByte]
  | ignored other =>
    have unmarked : ¬ (v = Config.markByte ∧ (!faulty) = true) := by
      rintro ⟨mark, whole⟩
      rcases other with other | faulty
      · exact other mark
      · simp [faulty] at whole
    simp only [rxMove, unmarked, if_false]
  | length low high => simp [rxMove, low, high]
  | byte n bytes p more => simp [rxMove, not_le.2 more]
  | last n bytes p full => simp [rxMove, full]
  | first => rfl

theorem endCharacter_quiet {l : LinkNo} {v : Byte} {faulty : Bool} {s : State} {r' : Receiver}
    (h : QuietMove v faulty (s.link l).receiver r') :
    endCharacter l v faulty s = s.putLink l (afterCharacter v faulty r' (s.link l)) :=
  endCharacter_eq h.rxMove_eq

/-- Settles O16: the six moves are the whole characters' `QuietMove`s. -/
theorem charactersMoveReceiver : Obligations.CharactersMoveReceiver := by
  intro l v s r r' high enabled receiver moves
  have quiet : QuietMove v false r r' := by
    rcases moves with ⟨rfl, mark, rfl⟩ | ⟨rfl, other, rfl⟩ | ⟨rfl, low, up, rfl⟩ | ⟨n, bytes, p, rfl, more, rfl⟩ |
      ⟨n, bytes, p, rfl, full, rfl⟩ | ⟨n, bytes, p, rfl, rfl⟩
    · exact .mark mark rfl
    · exact .ignored (.inl other)
    · exact .length low up
    · simpa using QuietMove.byte (v := v) (faulty := false) n bytes p more
    · simpa using QuietMove.last (v := v) (faulty := false) n bytes p full
    · simpa using QuietMove.first (v := v) (faulty := false) n bytes p
  rw [exec_character (receives_of_enabled high enabled), endCharacter_quiet (receiver.symm ▸ quiet)]
  simp [afterCharacter, State.putLink]

/-! ### Faults -/

theorem rxMove_badLength {v : Byte} (faulty : Bool) (bad : v.toNat < 2 ∨ 58 < v.toNat) :
    rxMove v faulty .length = (.hunt, .badLength) := by
  have out : ¬ (2 ≤ v.toNat ∧ v.toNat ≤ 58) := by omega
  simp [rxMove, out]

theorem endCharacter_badLength {l : LinkNo} {v : Byte} {s : State} (faulty : Bool) (receiver : (s.link l).receiver = .length)
    (bad : v.toNat < 2 ∨ 58 < v.toNat) :
    endCharacter l v faulty s = s.putLink l { s.link l with
      receiver := .hunt, inCharacter := false, gapTimer := .stopped
      counters := { (s.link l).counters with length := raised (s.link l).counters.length } } := by
  rw [endCharacter_eq (receiver.symm ▸ rxMove_badLength faulty bad)]
  simp [rxEffect, countFault, Counters.count, bump_eq, afterCharacter]

/-- Settles O17: a bad length byte is judged by `rxMove` under both names. -/
theorem lengthFaultAbandonsFrame : Obligations.LengthFaultAbandonsFrame := by
  intro l v s high enabled receiver bad
  have works := receives_of_enabled high enabled
  have fault : exec (.lengthFault l v) s = .next (endCharacter l v false s) := by
    show execLengthFault l v s = _
    simp [execLengthFault, works, receiver, rxMove_badLength false bad]
  refine ⟨?_, (exec_character works v).trans fault.symm⟩
  rw [fault, endCharacter_badLength false receiver bad]
  rfl

theorem countFault_framing (l : LinkNo) (s : State) : countFault l .framing s = s.putLink l { s.link l with
    counters := { (s.link l).counters with framing := raised (s.link l).counters.framing } } := by
  simp [countFault, Counters.count, bump_eq]

theorem rxMove_complete (v n c : Byte) (bytes : List Byte) (p faulty : Bool) :
    rxMove v faulty (.check n bytes (some c) p) = (.hunt, .complete n bytes c v (p || faulty)) := rfl

/-- A poisoned frame is discarded at its second check byte (R138). -/
theorem endCharacter_poisoned {l : LinkNo} {v n c : Byte} {bytes : List Byte} {p faulty : Bool} {s : State}
    (receiver : (s.link l).receiver = .check n bytes (some c) p) (poisoned : (p || faulty) = true) :
    endCharacter l v faulty s = s.putLink l (afterCharacter v faulty .hunt (s.link l)) := by
  rw [endCharacter_eq (receiver.symm ▸ rxMove_complete v n c bytes p faulty)]
  simp [rxEffect, poisoned]

/-- The link unit once a character with a stop-bit fault has ended. -/
def faultEnded (v : Byte) (r : Receiver) (lengthFault : Bool) (u : LinkUnit) : LinkUnit :=
  { u with
    receiver := r, inCharacter := false
    gapTimer := if r = .hunt then .stopped else if v = 0 then .running 0 else .lineLow 0
    counters := { u.counters with
      framing := raised u.counters.framing
      length := if lengthFault then raised u.counters.length else u.counters.length } }

theorem afterCharacter_faulty (v : Byte) (r : Receiver) (l : LinkNo) (s : State) :
    (countFault l .framing s).putLink l (afterCharacter v true r ((countFault l .framing s).link l)) =
      s.putLink l (faultEnded v r false (s.link l)) := by
  rw [countFault_framing]
  by_cases zero : v = 0 <;> simp [afterCharacter, faultEnded, zero]

/-- Settles O18: FRAMING is counted, then the faulty character moves the receiver. -/
theorem stopBitFaultPoisonsFrame : Obligations.StopBitFaultPoisonsFrame := by
  intro l v s r r' lengthFault high enabled receiver moves
  have receiver : ((countFault l .framing s).link l).receiver = r := by simpa [countFault_framing] using receiver
  have quiet (move : QuietMove v true r r') : endCharacter l v true (countFault l .framing s) =
      s.putLink l (faultEnded v r' false (s.link l)) := by
    rw [endCharacter_quiet (receiver.symm ▸ move), afterCharacter_faulty]
  have ended : endCharacter l v true (countFault l .framing s) =
      s.putLink l (faultEnded v r' lengthFault (s.link l)) := by
    rcases moves with ⟨rfl, rfl, rfl⟩ | ⟨rfl, low, up, rfl, rfl⟩ | ⟨rfl, bad, rfl, rfl⟩ |
      ⟨⟨n, bytes, p, rfl, more, rfl⟩, rfl⟩ | ⟨⟨n, bytes, p, rfl, full, rfl⟩, rfl⟩ | ⟨⟨n, bytes, p, rfl, rfl⟩, rfl⟩ |
      ⟨⟨n, bytes, c, p, rfl, rfl⟩, rfl⟩
    · exact quiet (.ignored (.inr rfl))
    · exact quiet (.length low up)
    · rw [endCharacter_badLength true receiver bad, countFault_framing]
      simp [faultEnded]
    · exact quiet (by simpa using QuietMove.byte (v := v) (faulty := true) n bytes p more)
    · exact quiet (by simpa using QuietMove.last (v := v) (faulty := true) n bytes p full)
    · exact quiet (by simpa using QuietMove.first (v := v) (faulty := true) n bytes p)
    · rw [endCharacter_poisoned receiver (Bool.or_true p), afterCharacter_faulty]
  have exec_eq : exec (.stopBitFault l v) s = .next (endCharacter l v true (countFault l .framing s)) := by
    show execStopBitFault l v s = _
    simp [execStopBitFault, receives_of_enabled high enabled]
  rw [exec_eq, ended]
  rfl

/-! ### Complete frames -/

theorem renewLease_eq (l : LinkNo) (s : State) : renewLease l s = leaseRenewed l s := by
  cases state : (s.session l).state with
  | opened d e =>
    simp only [renewLease, leaseRenewed, state]
    rfl
  | closed => simp only [renewLease, leaseRenewed, state]
  | lapsed => simp only [renewLease, leaseRenewed, state]

theorem leaseRenewed_links (l : LinkNo) (s : State) (links : Vector LinkUnit 6) :
    leaseRenewed l { s with links := links } = { leaseRenewed l s with links := links } := by
  unfold leaseRenewed
  dsimp only [State.session]
  split <;> rfl

theorem leaseRenewed_putLink (l m : LinkNo) (u : LinkUnit) (s : State) : leaseRenewed l (s.putLink m u) =
    { leaseRenewed l s with links := s.links.set m u } := leaseRenewed_links l s _

theorem links_leaseRenewed (l : LinkNo) (s : State) : (leaseRenewed l s).links = s.links := by
  unfold leaseRenewed
  split <;> rfl

theorem admitFrame_eq (l : LinkNo) (f : Frame) (s : State) : admitFrame l f s =
    if (s.link l).intake.length < 3 then
      { leaseRenewed l s with links := s.links.set l { s.link l with intake := (s.link l).intake ++ [f] } }
    else { leaseRenewed l s with links := s.links.set l { s.link l with
      counters := { (s.link l).counters with discard := raised (s.link l).counters.discard } } } := by
  have link : (leaseRenewed l s).link l = s.link l := by rw [State.link, links_leaseRenewed, State.link]
  simp only [admitFrame, renewLease_eq, link, Config.intakeRoom, countFault, Counters.count, bump_eq, State.putLink,
    links_leaseRenewed]

theorem exec_frameReceived {s : State} {l : LinkNo} (works : s.receives l = true) (v : Byte) {n c : Byte} {p : Bool}
    {bytes : List Byte} (receiver : (s.link l).receiver = .check n bytes (some c) p) :
    exec (.frameReceived l v) s = .next (rxEffect l (.complete n bytes c v p) (s.putLink l { s.link l with
      receiver := .hunt, inCharacter := false, gapTimer := .stopped })) := by
  show execFrameReceived l v s = _
  have move := rxMove_complete v n c bytes p false
  rw [Bool.or_false] at move
  have ended := endCharacter_eq (l := l) (s := s) (receiver.symm ▸ move)
  simp only [execFrameReceived, works, receiver, Receiver.awaitsLast, Bool.and_self, if_true, ended]
  simp [afterCharacter]

/-- Settles O19: what `rxEffect` makes of the complete frame. -/
theorem frameCompletionAtSecondCheckByte : Obligations.FrameCompletionAtSecondCheckByte := by
  intro l v n kind tag c body p s t high enabled receiver after
  have works := receives_of_enabled high enabled
  have received : exec (.frameReceived l v) s = .next (rxEffect l (.complete n (kind :: tag :: body) c v p) t) := by
    rw [exec_frameReceived works v receiver, after]
    rfl
  have good (same : c ++ v = checkOf (n :: kind :: tag :: body)) : checkGood n (kind :: tag :: body) c v = true := by
    simp [checkGood, same]
  have admitted (sound : p = false) (same : c ++ v = checkOf (n :: kind :: tag :: body)) :
      exec (.frameReceived l v) s = .next (admitFrame l { kind := kind, tag := tag, body := body } t) := by
    rw [received]
    simp only [rxEffect, sound, good same, if_true, Bool.false_eq_true, if_false]
    rfl
  have intake : (t.link l).intake = (s.link l).intake := by
    rw [after, State.link, Vector.get_set_fin, if_pos rfl]
  refine ⟨?_, fun poisoned => ?_, fun sound bad => ?_, fun sound same room => ?_, fun sound same full => ?_⟩
  · rw [exec_character works]
    show _ = execFrameReceived l v s
    simp [execFrameReceived, works, receiver, Receiver.awaitsLast]
  · rw [received]
    simp [rxEffect, poisoned]
  · have bad : checkGood n (kind :: tag :: body) c v = false := by simp [checkGood, bad]
    rw [received]
    simp [rxEffect, sound, bad, countFault, Counters.count, bump_eq, State.putLink]
  · rw [admitted sound same, admitFrame_eq, if_pos (intake.symm ▸ room)]
  · rw [admitted sound same, admitFrame_eq, intake, if_neg (not_lt.2 full)]

/-! ### A frame as it is sent -/

theorem toBytes_two (x : BitVec 16) : toBytes 2 x.toNat = [x.extractLsb' 8 8, x.extractLsb' 0 8] := by
  have high : BitVec.ofNat 8 (x.toNat / 256 ^ 1) = x.extractLsb' 8 8 := by
    apply BitVec.eq_of_toNat_eq
    simp [BitVec.extractLsb', Nat.shiftRight_eq_div_pow]
  have low : BitVec.ofNat 8 (x.toNat / 256 ^ 0) = x.extractLsb' 0 8 := by
    apply BitVec.eq_of_toNat_eq
    simp [BitVec.extractLsb']
  simp [toBytes, ← high, ← low]

theorem extract_append (x : BitVec 16) : x.extractLsb' 8 8 ++ x.extractLsb' 0 8 = x := by
  apply BitVec.eq_of_getLsbD_eq
  intro i lt
  simp only [BitVec.getLsbD_append, BitVec.getLsbD_extractLsb']
  by_cases low : i < 8
  · simp [low]
  · have : 8 + (i - 8) = i := by omega
    simp [low, this]
    omega

/-- The state with the receiver of link `l` inside a frame, just after a character. -/
def inFrame (l : LinkNo) (r : Receiver) (s : State) : State :=
  s.putLink l { s.link l with receiver := r, inCharacter := false, gapTimer := .running 0 }

theorem receives_inFrame (l : LinkNo) (r : Receiver) (s : State) : (inFrame l r s).receives l = s.receives l := rfl

theorem receiveAll_cons {l : LinkNo} {v : Byte} {rest : List Byte} {s t : State}
    (first : exec (.characterReceivedWhole l v) s = .next t) : receiveAll l (v :: rest) s = receiveAll l rest t := by
  simp only [receiveAll, first]

/-- A quiet move within a frame. -/
theorem receiveAll_inFrame {l : LinkNo} {s : State} (works : s.receives l = true) {v : Byte} {r r' : Receiver}
    (move : QuietMove v false r r') (started : r' ≠ .hunt) (rest : List Byte) :
    receiveAll l (v :: rest) (inFrame l r s) = receiveAll l rest (inFrame l r' s) := by
  refine receiveAll_cons ?_
  rw [exec_character ((receives_inFrame l r s).trans works),
    endCharacter_quiet (r' := r') (by simpa [inFrame] using move)]
  simp [inFrame, afterCharacter, started]

/-- The bytes of the body are stored up to the last. -/
theorem receiveAll_bytes {l : LinkNo} {s : State} (works : s.receives l = true) (n : Byte) (rest : List Byte) :
    ∀ (more done : List Byte), more ≠ [] → done.length + more.length = n.toNat →
      receiveAll l (more ++ rest) (inFrame l (.body n done false) s) =
        receiveAll l rest (inFrame l (.check n (done ++ more) none false) s)
  | [], _, nonempty, _ => absurd rfl nonempty
  | [v], done, _, full => receiveAll_inFrame works (by simpa using QuietMove.last n done false full) (by simp) rest
  | v :: w :: more, done, _, count => by
    have next := receiveAll_inFrame works (v := v)
      (by simpa using QuietMove.byte n done false (v := v) (faulty := false) (by simp at count; omega)) (by simp)
      (w :: more ++ rest)
    have ends := receiveAll_bytes works n rest (w :: more) (done ++ [v]) (by simp) (by simp at count ⊢; omega)
    simpa using next.trans ends

/-- Settles O20: the mark, the length, the body's bytes and the first check byte are quiet moves; the second completes the
frame. -/
theorem receivingASentFrameAdmitsIt : Obligations.ReceivingASentFrameAdmitsIt := by
  intro l kind tag body s high enabled hunt fits room
  have works := receives_of_enabled high enabled
  obtain ⟨n, length⟩ : ∃ n : Byte, n = BitVec.ofNat 8 (2 + body.length) := ⟨_, rfl⟩
  have count : n.toNat = 2 + body.length := by rw [length, BitVec.toNat_ofNat]; omega
  obtain ⟨check, check_eq⟩ : ∃ c, c = checkOf (n :: kind :: tag :: body) := ⟨_, rfl⟩
  have chars : frameChars kind tag body = 0xA5 :: n :: ((kind :: tag :: body) ++
      [check.extractLsb' 8 8, check.extractLsb' 0 8]) := by
    simp only [frameChars, toBytes_two, ← length, ← check_eq]
    rfl
  have started : exec (.characterReceivedWhole l 0xA5) s = .next (inFrame l .length s) := by
    rw [exec_character works, endCharacter_quiet (r' := .length) (by rw [hunt]; exact .mark rfl rfl)]
    rfl
  have sized := receiveAll_inFrame works (v := n) (QuietMove.length (by omega) (by omega)) (by simp)
    ((kind :: tag :: body) ++ [check.extractLsb' 8 8, check.extractLsb' 0 8])
  have stored := receiveAll_bytes works n [check.extractLsb' 8 8, check.extractLsb' 0 8] (kind :: tag :: body) []
    (by simp) (by simp; omega)
  have first := receiveAll_inFrame works (v := check.extractLsb' 8 8) (QuietMove.first n (kind :: tag :: body) false)
    (by simp) [check.extractLsb' 0 8]
  obtain ⟨u, u_eq⟩ : ∃ u, u = inFrame l (.check n (kind :: tag :: body) (some (check.extractLsb' 8 8)) false) s := ⟨_, rfl⟩
  have intake : (u.link l).intake = (s.link l).intake := by rw [u_eq]; simp [inFrame]
  have receiver : (u.link l).receiver = .check n (kind :: tag :: body) (some (check.extractLsb' 8 8)) false := by
    rw [u_eq]; simp [inFrame]
  obtain ⟨same, -, -, last, -⟩ := frameCompletionAtSecondCheckByte l (check.extractLsb' 0 8) n kind tag
    (check.extractLsb' 8 8) body false u _ (by rw [u_eq]; exact high) (by rw [u_eq]; exact enabled) receiver rfl
  have admitted := same.trans (last rfl ((extract_append check).trans check_eq) (by rw [intake]; exact room))
  rw [chars, receiveAll_cons started, sized, stored, List.nil_append, first, Bool.or_false, ← u_eq,
    receiveAll_cons admitted, u_eq]
  rw [inFrame, leaseRenewed_links l (s.putLink l _), leaseRenewed_putLink]
  simp only [State.link] at hunt
  simp [receiveAll, State.putLink, State.link, Vector.get_set_fin, hunt]

end Sys2Proof.Machine
end


section
/-! PROOFS. The transmitter (R134, R144, R147) and the dispatcher's choice (R151, R152). -/

namespace Sys2Proof.Machine

open Sys2Proof.Safety

/-! ### Frames in transmission -/

theorem chars_eq (e : OutEntry) (covered : List Byte)
    (covers : covered = [BitVec.ofNat 8 (2 + e.msg.body.length), e.msg.kind, e.tag] ++ e.msg.body) :
    e.chars = [0xA5] ++ covered ++ [(checkOf covered).extractLsb' 8 8, (checkOf covered).extractLsb' 0 8] := by
  subst covers
  simp [OutEntry.chars, frameChars, toBytes_two, Config.markByte]

theorem isSending_iff (u : LinkUnit) : u.isSending = true ↔ ∃ b cs place, u.transmitter = .sending b cs place := by
  unfold LinkUnit.isSending
  split
  · next b cs place sending => simp [sending]
  · next idle => simp [idle]
  · next finishing => simp [finishing]

theorem execFrameTransmitStart_eq {l : LinkNo} {e : OutEntry} {rest : List OutEntry} {s : State}
    (works : s.receives l = true) (head : (s.link l).outbound = e :: rest)
    (free : ∀ b cs place, (s.link l).transmitter ≠ .sending b cs place) : exec (.frameTransmitStart l) s =
      .next (s.putLink l { s.link l with transmitter := .sending (s.link l).baud e.chars 0 }) := by
  have free : (s.link l).isSending = false := by
    rw [Bool.eq_false_iff, Ne, isSending_iff]
    rintro ⟨b, cs, place, sending⟩
    exact free b cs place sending
  show execFrameTransmitStart l s = _
  simp only [execFrameTransmitStart, head, works, free, Bool.not_false, Bool.and_self, if_true]

theorem execEntryTransmitted_eq {l : LinkNo} {e : OutEntry} {rest : List OutEntry} {s : State} {b place : Nat}
    {cs : List Byte} (high : s.resetHeld = false) (head : (s.link l).outbound = e :: rest)
    (sending : (s.link l).transmitter = .sending b cs place) :
    exec (.entryTransmitted l) s = .next (finishEntry l e rest s) := by
  have over_ : cs.length * charPeriods b ≤ place + (cs.length * charPeriods b - place) := by omega
  have busy : (s.link l).isSending = true := (isSending_iff _).2 ⟨b, cs, place, sending⟩
  show execEntryTransmitted l s = _
  simp only [execEntryTransmitted, high, busy, Bool.not_false, Bool.and_self, if_true, runTransmitter, sending,
    Transmitter.frameLeft, over_, head]

theorem finishEntry_eq (l : LinkNo) (e : OutEntry) (rest : List OutEntry) (s : State) : finishEntry l e rest s =
    s.putLink l (if e.adopts = true then adopted (s.settings l) { s.link l with outbound := rest, transmitter := .idle }
      else { s.link l with outbound := rest, transmitter := .idle }) := by
  simp only [finishEntry]
  split
  · simp [adopt_eq]
  · rfl

/-! ### Levels of the line -/

theorem characterBits_getElem? (c : Byte) {bit : Nat} (lt : bit < 10) : (characterBits c)[bit]? =
    some (if bit = 0 then false else if bit = 9 then true else c.getLsbD (bit - 1)) := by
  interval_cases bit <;> rfl

/-- The levels of a row of characters, ten for each. -/
theorem flatMap_characterBits {chars : List Byte} {k bit : Nat} {c : Byte} (at_ : chars[k]? = some c) (lt : bit < 10) :
    (chars.flatMap characterBits)[k * 10 + bit]? = (characterBits c)[bit]? := by
  induction chars generalizing k with
  | nil => simp at at_
  | cons d rest ih =>
    have ten : (characterBits d).length = 10 := rfl
    rw [List.flatMap_cons]
    cases k with
    | zero =>
      have same : d = c := by simpa using at_
      rw [Nat.zero_mul, Nat.zero_add, List.getElem?_append_left (by omega), same]
    | succ k =>
      rw [List.getElem?_append_right (by omega), ten, show (k + 1) * 10 + bit - 10 = k * 10 + bit by omega]
      exact ih (by simpa using at_)

theorem mul_add_div_of_lt {n period bits : Nat} (lt : period < n) : (bits * n + period) / n = bits := by
  rw [Nat.mul_comm, Nat.mul_add_div (by omega), Nat.div_eq_of_lt lt, Nat.add_zero]

/-- Settles O22: the entry's characters, `finishEntry` and the levels of a character's bits. -/
theorem transmitterSendsHeadEntry : Obligations.TransmitterSendsHeadEntry := by
  refine ⟨fun l e rest covered s high head covers => ⟨fun enabled free => ?_, fun b cs place sending =>
    ⟨fun keeps => ?_, fun adopts changes => ?_⟩⟩, fun l s => ⟨fun rests => ?_, ?_⟩⟩
  · rw [execFrameTransmitStart_eq (receives_of_enabled high enabled) head free, chars_eq e covered covers]
    rfl
  · rw [execEntryTransmitted_eq high head sending, finishEntry_eq]
    split
    · next adopts =>
      obtain same : (s.link l).baud = (s.settings l).baud ∧ (s.link l).gap = (s.settings l).gap := by
        rcases keeps with keeps | same
        · rw [adopts] at keeps; cases keeps
        · exact same
      simp [adopted, same, State.putLink]
    · rfl
  · have changes : ¬ ((s.link l).baud = (s.settings l).baud ∧ (s.link l).gap = (s.settings l).gap) := by tauto
    rw [execEntryTransmitted_eq high head sending, finishEntry_eq, if_pos adopts]
    simp [adopted, changes, State.putLink]
  · rcases rests with low | idle
    · simp [State.txd, low]
    · simp [State.txd, idle, Transmitter.level]
  · intro baud chars c k bit period high at_ lt within sends
    have level : s.txd l = (s.link l).transmitter.level := by simp [State.txd, high]
    rw [level]
    rcases sends with sending | finishing
    · rw [sending, Transmitter.level, mul_add_div_of_lt within, List.getD_eq_getElem?_getD,
        flatMap_characterBits at_ lt, characterBits_getElem? c lt, Option.getD_some]
    · rw [finishing, Transmitter.level, mul_add_div_of_lt within, List.getD_eq_getElem?_getD,
        characterBits_getElem? c lt, Option.getD_some]

/-! ### The dispatcher -/

theorem neededEntries_eq (kind : Byte) :
    neededEntries kind = if kind ∈ ([0x01, 0x10, 0x12, 0x14, 0x20] : List Byte) then 3 else 1 := by
  cases named : ReqKind.ofCode kind with
  | some k =>
    rw [neededEntries, named, ← (ofCode_eq_some_iff kind k).1 named]
    cases k <;> rfl
  | none =>
    have unnamed := (ofCode_eq_none_iff kind).1 named
    have other : kind ∉ ([0x01, 0x10, 0x12, 0x14, 0x20] : List Byte) := by
      intro listed
      apply unnamed
      revert listed
      simp only [requestKindCodes, List.mem_cons, List.not_mem_nil, or_false]
      tauto
    rw [neededEntries, named, if_neg other]

theorem eligible_iff (s : State) (l : LinkNo) : s.eligible l = true ↔ (s.settings l).enabled = true ∧ ∃ f rest,
    (s.link l).intake = f :: rest ∧ (s.link l).outbound.length + (s.link l).reserved + neededEntries f.kind ≤ 40 := by
  have some_needed (kind : Byte) : 1 ≤ neededEntries kind := by
    rw [neededEntries_eq]
    split <;> omega
  simp only [State.eligible, Bool.and_eq_true]
  refine and_congr_right fun _ => ?_
  split
  · next empty => simp [empty]
  · next f rest head =>
    have free : (s.link l).free = 40 - (s.link l).outbound.length - (s.link l).reserved := rfl
    have needs := some_needed f.kind
    simp only [head, List.cons.injEq, decide_eq_true_eq, free]
    refine ⟨fun room => ⟨f, rest, ⟨rfl, rfl⟩, by omega⟩, ?_⟩
    rintro ⟨_, _, ⟨rfl, rfl⟩, room⟩
    omega

/-- The link `k` places after `c` in the rotation. -/
def linkAfter (c : LinkNo) (k : Nat) : LinkNo := ⟨(c.val + k) % 6, Nat.mod_lt _ (by decide)⟩

theorem linksAfter_eq (c : LinkNo) : linksAfter c = (List.range 6).map fun j => linkAfter c (j + 1) := by
  revert c
  decide

theorem find?_linksAfter_iff (p : LinkNo → Bool) (c l : LinkNo) : (linksAfter c).find? p = some l ↔ p l = true ∧
    ∃ k : Nat, 1 ≤ k ∧ k ≤ 6 ∧ l.val = (c.val + k) % 6 ∧
      ∀ m : LinkNo, ∀ j : Nat, 1 ≤ j → j < k → m.val = (c.val + j) % 6 → p m = false := by
  rw [linksAfter_eq, List.find?_eq_some_iff_getElem]
  simp only [List.length_map, List.length_range, List.getElem_map, List.getElem_range]
  refine and_congr_right fun _ => ⟨?_, ?_⟩
  · rintro ⟨i, lt, here, before⟩
    refine ⟨i + 1, by omega, by omega, by rw [← here]; rfl, fun m j low less place => ?_⟩
    obtain rfl : m = linkAfter c (j - 1 + 1) := Fin.ext (by rw [show j - 1 + 1 = j by omega]; exact place)
    simpa using before (j - 1) (by omega)
  · rintro ⟨k, low, up, place, before⟩
    refine ⟨k - 1, by omega, Fin.ext (by rw [show k - 1 + 1 = k by omega]; exact place.symm), fun j less => ?_⟩
    simpa using before (linkAfter c (j + 1)) (j + 1) (by omega) (by omega) rfl

/-- Settles O23: `eligible` and the search through `linksAfter`. -/
theorem dispatcherChoosesByRotation : Obligations.DispatcherChoosesByRotation := by
  refine ⟨fun s l => (eligible_iff s l).trans (by simp only [neededEntries_eq]), fun s turn => ?_⟩
  unfold State.nextTurn
  dsimp only
  by_cases stays : s.eligible s.rotation.current = true ∧ s.rotation.taken < (s.settings s.rotation.current).weight
  · have taken : (s.eligible s.rotation.current && decide (s.rotation.taken < (s.settings s.rotation.current).weight)) =
        true := by simpa using stays
    simp only [taken, if_true, Option.some.injEq]
    exact ⟨fun same => .inl ⟨stays.1, stays.2, same.symm⟩, by
      rintro (⟨-, -, same⟩ | ⟨moves, -⟩)
      · exact same.symm
      · exact absurd stays moves⟩
  · have taken : (s.eligible s.rotation.current && decide (s.rotation.taken < (s.settings s.rotation.current).weight)) =
        false := by simpa using stays
    simp only [taken, Bool.false_eq_true, if_false, Option.map_eq_some_iff, find?_linksAfter_iff]
    constructor
    · rintro ⟨l, ⟨eligible, found⟩, rfl⟩
      exact .inr ⟨stays, rfl, eligible, found⟩
    · rintro (⟨eligible, left, -⟩ | ⟨-, one, eligible, found⟩)
      · exact absurd ⟨eligible, left⟩ stays
      · exact ⟨turn.current, ⟨eligible, found⟩, by rw [← one]⟩

end Sys2Proof.Machine
end


section
/-! PROOFS. Refusals by the common checks, and the reply that ends every request (R153 to R155). -/

namespace Sys2Proof.Machine

open Sys2Proof.Safety

/-! ### Requests that the dispatcher takes -/

theorem refuse_eq (l : LinkNo) (tag : Byte) (r : Reason) (d : Byte) (s : State) :
    refuse l tag r d s = withReply l tag (.refused r d) s := reply_eq l tag _ s

/-- Settles O24: no kind is named and the frame is taken. -/
theorem unknownKindIsRefused : Obligations.UnknownKindIsRefused := by
  intro l kind tag body s t taken unnamed
  show execUnknownKindFrame l kind tag body s = _
  rw [execUnknownKindFrame, (ofCode_eq_none_iff kind).2 unnamed, (take_eq_some_iff l _ s t).2 taken]
  exact congrArg Host.Outcome.next (refuse_eq l tag .unknownKind 0 t)

theorem commonChecks_takesFrame {l m : LinkNo} {f : Frame} {s t : State} (taken : TakesFrame l f s t) (k : ReqKind)
    (tag : Byte) (body : List Byte) : commonChecks k m tag body t = commonChecks k m tag body s := by
  obtain ⟨rest, turn, _, _, _, _, rfl⟩ := taken
  rfl

theorem exec_of_taken {c : Instr} {k : ReqKind} {l : LinkNo} {tag : Byte} {body : List Byte} {s t : State}
    (request : requestOf c = some (k, l, tag, body))
    (taken : TakesFrame l { kind := k.code, tag := tag, body := body } s t) :
    exec c s = .next (match commonChecks k l tag body s with
      | some r => refuse l tag r 0 t
      | none => answer k l tag body t) := by
  rw [exec_request c k l tag body s request, serve, (take_eq_some_iff l _ s t).2 taken]
  dsimp only
  rw [commonChecks_takesFrame taken]
  cases commonChecks k l tag body s <;> rfl

theorem exec_of_serves {c : Instr} {k : ReqKind} {l : LinkNo} {tag : Byte} {body : List Byte} {s t : State}
    (request : requestOf c = some (k, l, tag, body)) (serves : Serves k l tag body s t) :
    exec c s = .next (answer k l tag body t) := by
  rw [exec_request c k l tag body s request, serve_eq k l tag body _ s t serves]

/-! ### The common checks -/

theorem ReqKind.needsSession_kinds {k : ReqKind} (needs : k.needsSession = true) :
    k.isManagement = false ∧ k.needsSetup = false ∧ k.needsService = true := by
  revert needs
  cases k <;> decide

theorem ReqKind.opensTag_kinds {k : ReqKind} (opens : k.opensTag = true) : k.needsSession = true := by
  revert opens
  cases k <;> decide

theorem passed_manager {k : ReqKind} {l : LinkNo} {s : State} (manages : k.isManagement = true → s.management = some l) :
    (k.isManagement && decide (s.management ≠ some l)) = false := by
  cases kind : k.isManagement with
  | false => rfl
  | true => simp [manages kind]

theorem passed_setup {k : ReqKind} {s : State} (setup : k.needsSetup = true → s.service = .setup) :
    (k.needsSetup && decide (s.service = .service)) = false := by
  cases kind : k.needsSetup with
  | false => rfl
  | true => simp [setup kind]

theorem passed_service {k : ReqKind} {s : State} (service : k.needsService = true → s.service = .service) :
    (k.needsService && decide (s.service = .setup)) = false := by
  cases kind : k.needsService with
  | false => rfl
  | true => simp [service kind]

theorem passed_session {k : ReqKind} {l : LinkNo} {s : State} (is_open : k.needsSession = true → (s.session l).isOpen = true) :
    (k.needsSession && decide ((s.session l).state = .closed)) = false ∧
      (k.needsSession && decide ((s.session l).state = .lapsed)) = false := by
  cases kind : k.needsSession with
  | false => exact ⟨rfl, rfl⟩
  | true =>
    obtain ⟨notClosed, notLapsed⟩ := (Session.isOpen_iff _).1 (is_open kind)
    simp [notClosed, notLapsed]

theorem lookup_isSome_iff (x : Session) (tag : Byte) : (x.lookup tag).isSome = true ↔ ∃ y ∈ x.tags, y.tag = tag := by
  simp [Session.lookup]

theorem lookup_isSome_of_fresh {x : Session} {tag : Byte} (fresh : ∀ y ∈ x.tags, y.tag ≠ tag) :
    (x.lookup tag).isSome = false := by
  rw [Bool.eq_false_iff, Ne, lookup_isSome_iff]
  rintro ⟨y, listed, same⟩
  exact fresh y listed same

theorem commonChecks_of_checksFail {k : ReqKind} {l : LinkNo} {tag : Byte} {body : List Byte} {s : State} {r : Reason}
    (fail : ChecksFail k l tag body s r) : commonChecks k l tag body s = some r := by
  cases fail with
  | badTag bad => simp only [commonChecks, firstFailure, bad, decide_true, if_true]
  | malformed tagged bad =>
    simp only [commonChecks, firstFailure, tagged, bad, decide_false, decide_true, if_true, if_false, ne_eq,
      not_false_eq_true, Bool.false_eq_true]
  | notManager tagged formed manages other =>
    simp only [commonChecks, firstFailure, tagged, formed, manages, other, decide_false, decide_true, if_true, if_false,
      ne_eq, not_true_eq_false, not_false_eq_true, Bool.false_eq_true, Bool.and_self]
  | inService tagged formed manages needs running =>
    simp only [commonChecks, firstFailure, tagged, formed, passed_manager fun _ => manages, needs, running, decide_false,
      decide_true, if_true, if_false, ne_eq, not_true_eq_false, Bool.false_eq_true, Bool.and_self]
  | notInService tagged formed manages needs setup =>
    simp only [commonChecks, firstFailure, tagged, formed, passed_manager manages, needs, setup, decide_false,
      decide_true, if_true, if_false, ne_eq, not_true_eq_false, Bool.false_eq_true, Bool.and_self, Bool.and_false,
      reduceCtorEq]
  | noSession tagged formed needs running closed =>
    obtain ⟨plain, setup, service⟩ := ReqKind.needsSession_kinds needs
    simp only [commonChecks, firstFailure, tagged, formed, plain, setup, passed_service fun _ => running, needs, closed,
      decide_false, decide_true, if_true, if_false, ne_eq, not_true_eq_false, Bool.false_eq_true, Bool.and_self,
      Bool.false_and]
  | lapsed tagged formed needs running lapsed =>
    obtain ⟨plain, setup, service⟩ := ReqKind.needsSession_kinds needs
    simp only [commonChecks, firstFailure, tagged, formed, plain, setup, passed_service fun _ => running, needs, lapsed,
      decide_false, decide_true, if_true, if_false, ne_eq, not_true_eq_false, Bool.false_eq_true, Bool.and_self,
      Bool.false_and, Bool.and_false, reduceCtorEq]
  | dupTag tagged formed manages setup service is_open dup =>
    obtain ⟨notClosed, notLapsed⟩ := passed_session is_open
    simp only [commonChecks, firstFailure, tagged, formed, passed_manager manages, passed_setup setup,
      passed_service service, notClosed, notLapsed, (lookup_isSome_iff _ _).2 dup, decide_false, if_true, if_false, ne_eq,
      not_true_eq_false, Bool.false_eq_true]
  | tagsFull tagged formed opens running is_open fresh full =>
    obtain ⟨plain, setup, service⟩ := ReqKind.needsSession_kinds (ReqKind.opensTag_kinds opens)
    obtain ⟨notClosed, notLapsed⟩ := passed_session (k := k) fun _ => is_open
    have full : Config.openTagRoom ≤ (s.session l).tags.length := full
    simp only [commonChecks, firstFailure, tagged, formed, plain, setup, passed_service fun _ => running, notClosed,
      notLapsed, lookup_isSome_of_fresh fresh, opens, full, decide_false, decide_true, if_true, if_false, ne_eq,
      not_true_eq_false, Bool.false_eq_true, Bool.and_self, Bool.false_and]

/-- Settles O25: the first failure of the checks is the one that `ChecksFail` names. -/
theorem commonCheckRefusesOnly : Obligations.CommonCheckRefusesOnly := by
  intro c k l tag body r s t request taken fail
  rw [exec_of_taken request taken, commonChecks_of_checksFail fail]
  exact congrArg Host.Outcome.next (refuse_eq l tag r 0 t)

/-! ### The reply -/

theorem kind_profileItem {selector index : Nat} {s : State} {m : Message} (item : profileItem selector index s = .ok m) :
    m.kind = 0x81 := by
  unfold profileItem at item
  dsimp only at item
  repeat' split at item
  all_goals cases item
  all_goals rfl

/-- The message of an accepted request is a DONE or a WAITING. -/
theorem Accepted.kind {l : LinkNo} {tag : Byte} {body : List Byte} {s v : State} {k : ReqKind} {m : Message}
    {adopts : Bool} (h : Accepted l tag body s k m adopts v) : m.kind = 0x81 ∨ m.kind = 0x82 := by
  cases h with
  | reads _ item => exact .inl (kind_profileItem item)
  | waits | converts | watches | arrives => exact .inr rfl
  | _ => exact .inl rfl

theorem outbound_queueFree (l : LinkNo) (e : OutEntry) (s : State) :
    ((queueFree l e s).link l).outbound = (s.link l).outbound ++ [e] := by
  simp [queueFree]

/-- A request that the dispatcher takes ends in a refusal, or in the reply to an accepted request. -/
theorem exec_taken_cases {c : Instr} {k : ReqKind} {l : LinkNo} {tag : Byte} {body : List Byte} {s t : State}
    (request : requestOf c = some (k, l, tag, body))
    (taken : TakesFrame l { kind := k.code, tag := tag, body := body } s t) :
    ∃ u, exec c s = .next u ∧ Answered k l tag body t u := by
  refine ⟨_, exec_of_taken request taken, ?_⟩
  cases commonChecks k l tag body s with
  | some r => exact .refused k l tag body r 0 t
  | none => exact answered k l tag body t

/-- Settles O26: the reply is what `Answered` queues last. -/
theorem replyIsQueuedLast : Obligations.ReplyIsQueuedLast := by
  intro c k l tag body s t request taken
  obtain ⟨u, next, ⟨r, d, refused⟩ | ⟨m, adopts, v, accepted, queued⟩⟩ := exec_taken_cases request taken
  · exact ⟨u, (t.link l).outbound, .refused r d, false, next, refused ▸ outbound_queueFree l _ t, .inr (.inr rfl)⟩
  · refine ⟨u, (v.link l).outbound, m, adopts, next, queued ▸ outbound_queueFree l _ v, ?_⟩
    exact accepted.kind.imp_right .inl

/-- Settles O28: a reply that is REFUSED is none of an accepted request. -/
theorem refusedRequestOnlyReplies : Obligations.RefusedRequestOnlyReplies := by
  intro c k l tag body s t u before r d adopts request taken h last
  obtain ⟨u', next, outcome⟩ := exec_taken_cases request taken
  obtain rfl : u = u' := Host.Outcome.next.inj (h.symm.trans next)
  rcases outcome with ⟨r', d', refused⟩ | ⟨m, adopts', v, accepted, queued⟩
  · have queued : (u.link l).outbound = (t.link l).outbound ++
        [{ tag := tag, msg := .refused r' d', adopts := false }] := by rw [refused]; exact outbound_queueFree l _ t
    obtain ⟨-, entry⟩ := List.append_inj' (last.symm.trans queued) rfl
    simp only [List.cons.injEq, OutEntry.mk.injEq, Message.refused.injEq, and_true, true_and] at entry
    obtain ⟨⟨rfl, rfl⟩, -⟩ := entry
    rw [refused, refuse_eq]
  · rw [queued, outbound_queueFree] at last
    obtain ⟨-, entry⟩ := List.append_inj' last.symm rfl
    simp only [List.cons.injEq, OutEntry.mk.injEq, and_true, true_and] at entry
    obtain ⟨message, -⟩ := entry
    have third : (Message.refused r d).kind = 0x83 := rfl
    rcases accepted.kind with kind | kind
    · rw [← message, third] at kind; exact absurd kind (by decide)
    · rw [← message, third] at kind; exact absurd kind (by decide)

end Sys2Proof.Machine
end


section
/-! PROOFS. Refusals by the owners' own checks. -/

namespace Sys2Proof.Machine

open Sys2Proof.Safety

/-! ### Blocks, modes and windows (R10) -/

theorem answer_of_blockFault {k : ReqKind} {l : LinkNo} {tag : Byte} {body : List Byte} {s : State} {b : Block}
    {r : Reason} {d : Byte} (named : namedBlock k body = some b) (fault : blockFault b = some (r, d)) :
    answer k l tag body s = refuse l tag r d s := by
  cases k with
  | acquire =>
    cases named
    simp only [answer, acquire, admitAcquire, fault]
  | watch =>
    cases named
    simp only [answer, watch, admitBlock, fault]
  | query =>
    cases named
    simp only [answer, query, admitBlock, fault]
  | _ => cases named

theorem blockFault_none {b : Block} (exp : b.exp ≤ 24) (aligned : 2 ^ b.exp ∣ b.base) : blockFault b = none :=
  (blockFault_eq_none_iff b).2 ⟨exp, Nat.mod_eq_zero_of_dvd aligned⟩

theorem answer_of_mode {l : LinkNo} {tag : Byte} {body : List Byte} {s : State}
    (fine : blockFault (AcquireReq.ofBody body).block = none) (mode : 1 < (AcquireReq.ofBody body).mode.toNat) :
    answer .acquire l tag body s = refuse l tag .badValue 3 s := by
  simp only [answer, acquire, admitAcquire, fine, Mode.ofCode_eq_none _ mode]

theorem answer_of_outOfWindow {k : ReqKind} {l : LinkNo} {tag : Byte} {body : List Byte} {s : State} {b : Block}
    (named : namedBlock k body = some b) (fine : blockFault b = none)
    (mode : k = .acquire → (AcquireReq.ofBody body).mode.toNat ≤ 1) (outside : ∀ w, ¬ FirstWindow s l b w) :
    answer k l tag body s = refuse l tag .outOfWindow 0 s := by
  have none := findWindow_eq_none s l b outside
  cases k with
  | acquire =>
    cases named
    obtain ⟨m, code⟩ := Mode.ofCode_isSome _ (mode rfl)
    simp only [answer, acquire, admitAcquire, fine, code, none]
  | watch =>
    cases named
    simp only [answer, watch, admitBlock, fine, none]
  | query =>
    cases named
    simp only [answer, query, admitBlock, fine, none]
  | _ => cases named

theorem answer_of_access {l : LinkNo} {tag : Byte} {body : List Byte} {s : State} {w : Window}
    (admits : Admits s l (AcquireReq.ofBody body).block w) (mode : (AcquireReq.ofBody body).mode = 1)
    (access : w.access = .sharedOnly) : answer .acquire l tag body s = refuse l tag .access 3 s := by
  obtain ⟨exp, aligned, first⟩ := admits
  have code : Mode.ofCode (AcquireReq.ofBody body).mode = some .exclusive := by rw [mode]; rfl
  simp only [answer, acquire, admitAcquire, (blockFault_eq_none_iff _).2 ⟨exp, aligned⟩, code,
    (findWindow_eq_some_iff s l _ w).2 first, access, and_self, if_true]

/-! ### Room (R29) and tokens (R31) -/

theorem acquire_of_grantsAtOnce {l : LinkNo} {tag : Byte} {body : List Byte} {s : State} (grants : GrantsAtOnce l body s) :
    ∃ b m, acquire l tag body s = grantAtOnce l tag b m (AcquireReq.ofBody body).hold s := by
  obtain ⟨b, m, ⟨w, admits, code, access, block⟩, alone⟩ := grants
  refine ⟨b, m, ?_⟩
  simp only [acquire, admitAcquire_eq s l _ _ m w admits code access, ← block,
    claimConflicts_eq_false s b m alone, Bool.false_eq_true, if_false]

theorem acquire_of_mustWait {l : LinkNo} {tag : Byte} {body : List Byte} {s : State} (waits : MustWait l body s) :
    ∃ b m, acquire l tag body s =
      enterWaitList l tag b m (AcquireReq.ofBody body).wait (AcquireReq.ofBody body).hold s := by
  obtain ⟨b, m, ⟨w, admits, code, access, block⟩, conflict, wait⟩ := waits
  refine ⟨b, m, ?_⟩
  simp only [acquire, admitAcquire_eq s l _ _ m w admits code access, ← block,
    (claimConflicts_iff s b m).2 conflict, if_true, wait, if_false]

theorem watch_of_mustWatch {l : LinkNo} {tag : Byte} {body : List Byte} {s : State} (waits : MustWatch l body s) :
    ∃ b, watch l tag body s = enterWatchList l tag b (WatchReq.ofBody body).wait s := by
  obtain ⟨w, admits, held, wait⟩ := waits
  refine ⟨w.translate (WatchReq.ofBody body).block, ?_⟩
  simp only [watch, admitBlock_eq s l _ w admits, (heldOver_iff s _).2 held, if_true, wait, if_false]

theorem grantAtOnce_of_room {l : LinkNo} {tag : Byte} {b : Block} {m : Mode} {hold : Nat} {s : State} {r : Reason}
    (room : roomTest l false s = some r) : grantAtOnce l tag b m hold s = refuse l tag r 0 s := by
  simp only [grantAtOnce, room]

theorem enterWaitList_of_room {l : LinkNo} {tag : Byte} {b : Block} {m : Mode} {wait hold : Nat} {s : State} {r : Reason}
    (room : roomTest l s.waitListFull s = some r) : enterWaitList l tag b m wait hold s = refuse l tag r 0 s := by
  simp only [enterWaitList, room]

theorem enterWatchList_of_room {l : LinkNo} {tag : Byte} {b : Block} {wait : Nat} {s : State} {r : Reason}
    (room : roomTest l s.watchListFull s = some r) : enterWatchList l tag b wait s = refuse l tag r 0 s := by
  simp only [enterWatchList, room]

theorem answer_of_room {k : ReqKind} {l : LinkNo} {tag : Byte} {body : List Byte} {s : State} {r : Reason}
    (needs : NeedsRecord k l body s) (room : ∀ full, roomTest l full s = some r) :
    answer k l tag body s = refuse l tag r 0 s := by
  rcases needs with ⟨rfl, grants | waits⟩ | ⟨rfl, waits⟩
  · obtain ⟨b, m, grant⟩ := acquire_of_grantsAtOnce (tag := tag) grants
    exact grant.trans (grantAtOnce_of_room (room _))
  · obtain ⟨b, m, wait⟩ := acquire_of_mustWait (tag := tag) waits
    exact wait.trans (enterWaitList_of_room (room _))
  · obtain ⟨b, wait⟩ := watch_of_mustWatch (tag := tag) waits
    exact wait.trans (enterWatchList_of_room (room _))

theorem roomTest_of_quota {l : LinkNo} {s : State} (spent : (s.session l).owned = (s.settings l).quota) (full : Bool) :
    roomTest l full s = some .quota := by
  simp only [roomTest, spent, if_true]

theorem roomTest_of_pool {l : LinkNo} {s : State} (left : (s.session l).owned ≠ (s.settings l).quota)
    (none : ∀ i, (s.record i).state ≠ .free) (full : Bool) : roomTest l full s = some .noRoom := by
  simp only [roomTest, left, lowestFree_eq_none s none, if_true, if_false]

theorem roomTest_of_list {l : LinkNo} {s : State} {i : RecNo} {full : Bool}
    (left : (s.session l).owned ≠ (s.settings l).quota) (free : (s.record i).state = .free) (list : full = true) :
    roomTest l full s = some .noRoom := by
  obtain ⟨j, lowest⟩ := lowestFree_isSome s i free
  simp only [roomTest, left, lowest, list, reduceCtorEq, if_true, if_false]

theorem answer_of_tokensSpent {l : LinkNo} {tag : Byte} {body : List Byte} {s : State} {i : RecNo}
    (grants : GrantsAtOnce l body s) (left : (s.session l).owned ≠ (s.settings l).quota)
    (free : (s.record i).state = .free) (spent : s.tokens = 0xFFFFFFFF) :
    answer .acquire l tag body s = refuse l tag .tokensSpent 0 s := by
  obtain ⟨b, m, grant⟩ := acquire_of_grantsAtOnce (tag := tag) grants
  obtain ⟨j, lowest⟩ := lowestFree_isSome s i free
  have room : roomTest l false s = none := (roomTest_eq_none_iff l false s).2 ⟨left, by simp [lowest], rfl⟩
  have spent : s.tokensSpent = true := by simp [State.tokensSpent, spent, Config.maxToken]
  refine Eq.trans (show _ = acquire l tag body s from rfl) (grant.trans ?_)
  simp only [grantAtOnce, room, lowest, spent, if_true]

/-! ### Handles (R22, R56, R59) -/

theorem answer_of_staleHandle {k : ReqKind} {l : LinkNo} {tag : Byte} {body : List Byte} {s : State} {handle : Nat}
    (names : namedHandle k body = some handle) (stale : ∀ i, ¬ ValidHandle s l handle i) :
    answer k l tag body s = refuse l tag .staleHandle 1 s := by
  have none := named_eq_none s l handle stale
  cases k with
  | release =>
    cases names
    simp only [answer, release, none]
  | convert =>
    cases names
    simp only [answer, convert, none]
  | _ => cases names

theorem named_of_validHandle {s : State} {l : LinkNo} {handle : Nat} {i : RecNo} (valid : ValidHandle s l handle i) :
    s.named l handle = some i := (named_eq_some_iff s l handle i).2 valid

theorem answer_of_releaseNotHeld {l : LinkNo} {tag : Byte} {body : List Byte} {s : State} {i : RecNo}
    (valid : ValidHandle s l (fieldAt body 0 2) i)
    (waits : (s.record i).state.isWaiting = true ∨ (s.record i).state.isWatching = true) :
    answer .release l tag body s = refuse l tag .notHeld 0 s := by
  simp only [answer, release, named_of_validHandle valid]
  cases state : (s.record i).state with
  | waiting | watching | free => rfl
  | held | converting => simp [state, RecState.isWaiting, RecState.isWatching] at waits

theorem answer_of_convertMode {l : LinkNo} {tag : Byte} {body : List Byte} {s : State} {i : RecNo}
    (valid : ValidHandle s l (ConvertReq.ofBody body).handle i) (mode : 1 < (ConvertReq.ofBody body).mode.toNat) :
    answer .convert l tag body s = refuse l tag .badValue 2 s := by
  simp only [answer, convert, named_of_validHandle valid, Mode.ofCode_eq_none _ mode]

theorem answer_of_convertNotHeld {l : LinkNo} {tag : Byte} {body : List Byte} {s : State} {i : RecNo}
    (valid : ValidHandle s l (ConvertReq.ofBody body).handle i) (mode : (ConvertReq.ofBody body).mode.toNat ≤ 1)
    (waits : (s.record i).state.isWaiting = true ∨ (s.record i).state.isConverting = true ∨
      (s.record i).state.isWatching = true) :
    answer .convert l tag body s = refuse l tag .notHeld 0 s := by
  obtain ⟨m, code⟩ := Mode.ofCode_isSome _ mode
  simp only [answer, convert, named_of_validHandle valid, code]
  cases state : (s.record i).state with
  | waiting | watching | free | converting => rfl
  | held => simp [state, RecState.isWaiting, RecState.isWatching, RecState.isConverting] at waits

theorem answer_of_sameMode {l : LinkNo} {tag : Byte} {body : List Byte} {s : State} {i : RecNo} {b : Block} {m : Mode}
    {token : Word} {h : Option Hold} (valid : ValidHandle s l (ConvertReq.ofBody body).handle i)
    (state : (s.record i).state = .held l b m token h) (code : Mode.ofCode (ConvertReq.ofBody body).mode = some m) :
    answer .convert l tag body s = refuse l tag .sameMode 2 s := by
  simp only [answer, convert, named_of_validHandle valid, code, state, if_true]

/-! ### Tags and groups (R92, R122) -/

theorem answer_of_notOpen {l : LinkNo} {tag : Byte} {body : List Byte} {s : State}
    (fresh : ∀ x ∈ (s.session l).tags, x.tag ≠ byteAt body 0) :
    answer .cancel l tag body s = refuse l tag .notOpen 1 s := by
  have none : (s.session l).lookup (byteAt body 0) = none := by
    simpa [Option.isSome_iff_ne_none] using lookup_isSome_of_fresh fresh
  simp only [answer, cancel, none]

theorem answer_of_notMember {l : LinkNo} {tag : Byte} {body : List Byte} {s : State} {g : GroupNo}
    (group : (ArriveReq.ofBody body).group.toNat = g.val) (outside : (s.groupDef g).has l = false) :
    answer .arrive l tag body s = refuse l tag .notMember 0 s := by
  simp only [answer, arrive, (groupOf_eq_some_iff _ g).2 group, outside, Bool.not_false, if_true]

theorem answer_of_alreadyArrived {l : LinkNo} {tag : Byte} {body : List Byte} {s : State} {g : GroupNo} {a : Arrival}
    (group : (ArriveReq.ofBody body).group.toNat = g.val) (member : (s.groupDef g).has l = true)
    (listed : a ∈ (s.group g).arrivals) (link : a.link = l) :
    answer .arrive l tag body s = refuse l tag .alreadyArrived 0 s := by
  simp only [answer, arrive, (groupOf_eq_some_iff _ g).2 group, member, (hasArrived_iff _ l).2 ⟨a, listed, link⟩,
    Bool.not_true, Bool.false_eq_true, if_true, if_false]

end Sys2Proof.Machine
end


section
/-! PROOFS. Fields out of range, and every refusal of an owner. -/

namespace Sys2Proof.Machine

open Sys2Proof.Safety

/-! ### Fields out of range (R92, R162 to R164, R167 to R169) -/

theorem badField_setLink {l : LinkNo} {body : List Byte} {f : Byte}
    (bad : FirstFails (badFields .setLink l body) f) : (SetLinkReq.ofBody body).badField (some l) = some f := by
  refine firstFailure_of_firstFails _ _ f ?_ bad
  refine .cons ⟨linkOf_isNone_iff _, rfl⟩ (.cons ⟨?_, rfl⟩ (.cons ⟨by simp, rfl⟩ (.cons ⟨by simp, rfl⟩
    (.cons ⟨by simp, rfl⟩ (.cons ⟨by simp, rfl⟩ (.cons ⟨by simp, rfl⟩ .nil))))))
  have target : ((linkOf (SetLinkReq.ofBody body).link).isSome && linkOf (SetLinkReq.ofBody body).link = some l) = true ↔
      (SetLinkReq.ofBody body).link.toNat = l.val := by
    rw [← linkOf_eq_some_iff]
    constructor
    · intro h
      simpa using (Bool.and_eq_true_iff.1 h).2
    · intro h
      simp [h]
  rw [Bool.or_eq_true, Bool.and_assoc, Bool.and_eq_true, target]
  simp

theorem badField_setWindow {l : LinkNo} {body : List Byte} {f : Byte}
    (bad : FirstFails (badFields .setWindow l body) f) : (SetWindowReq.ofBody body).badField = some f := by
  refine firstFailure_of_firstFails _ _ f ?_ bad
  exact .cons ⟨linkOf_isNone_iff _, rfl⟩ (.cons ⟨windowOf_isNone_iff _, rfl⟩ (.cons ⟨decide_eq_true_iff, rfl⟩
    (.cons ⟨by simp [Nat.dvd_iff_mod_eq_zero], rfl⟩ (.cons ⟨by simp [Nat.dvd_iff_mod_eq_zero], rfl⟩
      (.cons ⟨Access.ofCode_isNone_iff _, rfl⟩ .nil)))))

theorem setWidth_ne_zero {members : Byte} (low : ¬ 64 ≤ members.toNat) (nonempty : members ≠ 0) :
    members.setWidth 6 ≠ 0 := by
  intro zero
  apply nonempty
  apply BitVec.eq_of_toNat_eq
  have : (members.setWidth 6).toNat = 0 := by rw [zero]; rfl
  rw [BitVec.toNat_setWidth] at this
  simp
  omega

theorem badField_setGroup {l : LinkNo} {body : List Byte} {f : Byte}
    (bad : FirstFails (badFields .setGroup l body) f) : (SetGroupReq.ofBody body).badField = some f := by
  obtain ⟨q, fields⟩ : ∃ q, q = SetGroupReq.ofBody body := ⟨_, rfl⟩
  rw [badFields, ← fields] at bad
  rw [← fields]
  have judged : FirstFails [(7 < q.group.toNat, 1), (64 ≤ q.members.toNat, 2), (1 < q.mode.toNat, 3),
      (q.k < 1 ∨ 6 < q.k, 4), (q.members.setWidth 6 ≠ 0 ∧ memberCount (q.members.setWidth 6) < q.k, 4)] f := by
    rcases bad with h | ⟨group, h | ⟨low, h | ⟨mode, h | ⟨k, ⟨⟨some_, few⟩, h⟩ | ⟨-, none⟩⟩⟩⟩⟩
    · exact .inl h
    · exact .inr ⟨group, .inl h⟩
    · exact .inr ⟨group, .inr ⟨low, .inl h⟩⟩
    · exact .inr ⟨group, .inr ⟨low, .inr ⟨mode, .inl h⟩⟩⟩
    · exact .inr ⟨group, .inr ⟨low, .inr ⟨mode, .inr ⟨k, .inl ⟨⟨setWidth_ne_zero low some_, few⟩, h⟩⟩⟩⟩⟩
    · exact none.elim
  refine firstFailure_of_firstFails _ _ f ?_ judged
  exact .cons ⟨groupOf_isNone_iff _, rfl⟩ (.cons ⟨highMember_iff _, rfl⟩ (.cons ⟨GroupMode.ofCode_isNone_iff _, rfl⟩
    (.cons ⟨by simp, rfl⟩ (.cons ⟨by simp, rfl⟩ .nil))))

theorem profileItem_error {body : List Byte} {l : LinkNo} {s : State} {f : Byte}
    (bad : FirstFails (badFields .profile l body) f) :
    profileItem (fieldAt body 0 1) (fieldAt body 1 1) s = .error f := by
  rcases bad with ⟨high, rfl⟩ | ⟨-, ⟨(⟨zero, index⟩ | ⟨one, index⟩ | ⟨two, index⟩ | ⟨three, index⟩), rfl⟩ | ⟨-, none⟩⟩
  · have : fieldAt body 0 1 ≠ 0 ∧ fieldAt body 0 1 ≠ 1 ∧ fieldAt body 0 1 ≠ 2 ∧ fieldAt body 0 1 ≠ 3 := by omega
    simp [profileItem, this]
  · simp [profileItem, zero, not_lt.2 (show 6 ≤ fieldAt body 1 1 from index)]
  · simp [profileItem, one, not_lt.2 (show 24 ≤ fieldAt body 1 1 from index)]
  · simp [profileItem, two, not_lt.2 (show 8 ≤ fieldAt body 1 1 from index)]
  · simp [profileItem, three, show fieldAt body 1 1 ≠ 0 by omega]
  · exact none.elim

theorem answer_of_badValue {k : ReqKind} {l : LinkNo} {tag : Byte} {body : List Byte} {s : State} {f : Byte}
    (manages : k.isManagement = true → s.management = some l) (bad : FirstFails (badFields k l body) f) :
    answer k l tag body s = refuse l tag .badValue f s := by
  cases k with
  | setLink => simp only [answer, setLink, manages rfl, badField_setLink bad]
  | setWindow => simp only [answer, setWindow, badField_setWindow bad]
  | setGroup => simp only [answer, setGroup, badField_setGroup bad]
  | profile => simp only [answer, profile, profileItem_error bad]
  | status =>
    rcases bad with ⟨high, rfl⟩ | ⟨-, none⟩
    · simp only [answer, status]
      split
      · next zero => omega
      · next one => omega
      · rfl
    · exact none.elim
  | arrive =>
    rcases bad with ⟨high, rfl⟩ | ⟨-, none⟩
    · simp only [answer, arrive, Option.isNone_iff_eq_none.1 ((groupOf_isNone_iff _).2 high)]
    · exact none.elim
  | evict =>
    rcases bad with ⟨high | own, rfl⟩ | ⟨-, none⟩
    · simp only [answer, evict, Option.isNone_iff_eq_none.1 ((linkOf_isNone_iff _).2 high)]
    · simp only [answer, evict, (linkOf_eq_some_iff _ l).2 own, manages rfl, if_true]
    · exact none.elim
  | _ => exact bad.elim

theorem answer_of_evictNoSession {l n : LinkNo} {tag : Byte} {body : List Byte} {s : State}
    (manages : s.management = some l) (target : (byteAt body 0).toNat = n.val) (other : n ≠ l)
    (shut : (s.session n).isOpen = false) : answer .evict l tag body s = refuse l tag .noSession 0 s := by
  have kept : ¬ (some l : Option LinkNo) = some n := fun same => other (Option.some.inj same).symm
  simp only [answer, evict, (linkOf_eq_some_iff _ n).2 target, manages, kept, shut, if_false, Bool.not_false, if_true]

/-! ### Every refusal -/

theorem ownerRefuses_takesFrame {l m : LinkNo} {f : Frame} {s t : State} (taken : TakesFrame m f s t) {body : List Byte}
    {k : ReqKind} {r : Reason} {d : Byte} (refuses : OwnerRefuses l body s k r d) : OwnerRefuses l body t k r d := by
  obtain ⟨rest, turn, _, _, _, _, rfl⟩ := taken
  cases refuses with
  | exponent _ b named exp => exact .exponent _ b named exp
  | alignment _ b named exp base => exact .alignment _ b named exp base
  | mode exp base mode => exact .mode exp base mode
  | outOfWindow _ b named exp base mode outside => exact .outOfWindow _ b named exp base mode outside
  | access w admits mode access => exact .access w admits mode access
  | quota _ needs spent => exact .quota _ needs spent
  | poolFull _ needs left none => exact .poolFull _ needs left none
  | waitListFull i waits left free list => exact .waitListFull i waits left free list
  | watchListFull i waits left free list => exact .watchListFull i waits left free list
  | tokensSpent i grants left free spent => exact .tokensSpent i grants left free spent
  | staleHandle _ h names stale => exact .staleHandle _ h names stale
  | releaseNotHeld i valid waits => exact .releaseNotHeld i valid waits
  | convertMode i valid mode => exact .convertMode i valid mode
  | convertNotHeld i valid mode waits => exact .convertNotHeld i valid mode waits
  | sameMode i b m t h valid state code => exact .sameMode i b m t h valid state code
  | notOpen fresh => exact .notOpen fresh
  | notMember g group outside => exact .notMember g group outside
  | alreadyArrived g a group member listed link => exact .alreadyArrived g a group member listed link
  | badValue _ f bad => exact .badValue _ _ bad
  | evictNoSession n target other shut => exact .evictNoSession n target other shut

theorem answer_of_ownerRefuses {k : ReqKind} {l : LinkNo} {tag : Byte} {body : List Byte} {s : State} {r : Reason}
    {d : Byte} (manages : k.isManagement = true → s.management = some l) (refuses : OwnerRefuses l body s k r d) :
    answer k l tag body s = refuse l tag r d s := by
  cases refuses with
  | exponent _ b named exp => exact answer_of_blockFault named (blockFault_exponent b exp)
  | alignment _ b named exp base => exact answer_of_blockFault named (blockFault_alignment b exp base)
  | mode exp base mode => exact answer_of_mode (blockFault_none exp base) mode
  | outOfWindow _ b named exp base mode outside =>
    exact answer_of_outOfWindow named (blockFault_none exp base) mode outside
  | access w admits mode access => exact answer_of_access admits mode access
  | quota _ needs spent => exact answer_of_room needs (roomTest_of_quota spent)
  | poolFull _ needs left none => exact answer_of_room needs (roomTest_of_pool left none)
  | waitListFull i waits left free list =>
    obtain ⟨b, m, wait⟩ := acquire_of_mustWait (tag := tag) waits
    have full : s.waitListFull = true := decide_eq_true list
    exact wait.trans (enterWaitList_of_room (roomTest_of_list left free full))
  | watchListFull i waits left free list =>
    obtain ⟨b, wait⟩ := watch_of_mustWatch (tag := tag) waits
    have full : s.watchListFull = true := decide_eq_true list
    exact wait.trans (enterWatchList_of_room (roomTest_of_list left free full))
  | tokensSpent i grants left free spent => exact answer_of_tokensSpent grants left free spent
  | staleHandle _ h names stale => exact answer_of_staleHandle names stale
  | releaseNotHeld i valid waits => exact answer_of_releaseNotHeld valid waits
  | convertMode i valid mode => exact answer_of_convertMode valid mode
  | convertNotHeld i valid mode waits => exact answer_of_convertNotHeld valid mode waits
  | sameMode i b m t h valid state code => exact answer_of_sameMode valid state code
  | notOpen fresh => exact answer_of_notOpen fresh
  | notMember g group outside => exact answer_of_notMember group outside
  | alreadyArrived g a group member listed link => exact answer_of_alreadyArrived group member listed link
  | badValue _ f bad => exact answer_of_badValue manages bad
  | evictNoSession n target other shut => exact answer_of_evictNoSession (manages rfl) target other shut

/-- Settles O27: each owner's check, in its place. -/
theorem ownerRefusesOnly : Obligations.OwnerRefusesOnly := by
  intro c k l tag body r d s t request serves refuses
  obtain ⟨taken, -, -, manages, -⟩ := id serves
  have manages : k.isManagement = true → t.management = some l := by
    obtain ⟨rest, turn, _, _, _, _, rfl⟩ := taken
    exact manages
  rw [exec_of_serves request serves, answer_of_ownerRefuses manages (ownerRefuses_takesFrame taken refuses)]
  exact congrArg Host.Outcome.next (refuse_eq l tag r d t)

end Sys2Proof.Machine
end


section
/-! PROOFS. Requests that open and close sessions, read values and hold records. -/

namespace Sys2Proof.Machine

open Sys2Proof.Safety

/-! ### OPEN, CLOSE, RENEW and STATUS -/

theorem exec_served {c : Instr} {k : ReqKind} {l : LinkNo} {tag : Byte} {body : List Byte} {s t u : State}
    (request : requestOf c = some (k, l, tag, body)) (serves : Serves k l tag body s t) (same : answer k l tag body t = u) :
    exec c s = .next u := (exec_of_serves request serves).trans (congrArg _ same)

theorem session_takesFrame {l : LinkNo} {f : Frame} {s t : State} (taken : TakesFrame l f s t) (n : LinkNo) :
    t.session n = s.session n := congrFun (pool_of_takesFrame taken).2.1 n

theorem openSession_closed {l : LinkNo} {s : State} (closed : (s.session l).state = .closed) (tag : Byte)
    (body : List Byte) : openSession l tag body s = { s with
      sessions := s.sessions.set l { s.session l with
        state := .opened { ms := s.uptime + BitVec.ofNat 32 (s.settings l).lease, sub := s.clkin } s.epoch }
      links := s.links.set l { s.link l with
        reserved := (s.link l).reserved + 1
        outbound := (s.link l).outbound ++
          [{ tag := tag, adopts := false, msg := .doneOpen s.epoch s.tokens (s.settings l).lease (s.settings l).quota }] } } := by
  simp [openSession, closed, reply, queueFree, openUp, reserve, putSessState, State.putLink, State.putSession, State.link,
    State.due, Vector.get_set_fin]

/-- Settles O29: OPEN and CLOSE by the state of the session. -/
theorem openAndCloseAnswer : Obligations.OpenAndCloseAnswer := by
  refine ⟨fun l tag body s t serves => ?_, fun l tag body s t serves => ?_⟩
  · obtain ⟨taken, -⟩ := id serves
    have session := session_takesFrame taken l
    refine ⟨fun closed => exec_served rfl serves ?_, fun is_open => exec_served rfl serves ?_,
      fun lapsed => exec_served rfl serves ?_⟩
    · refine (openSession_closed (session ▸ closed) tag body).trans ?_
      obtain ⟨outbound, reserved⟩ := account_of_takesFrame taken l
      rw [session, outbound, reserved]
      obtain ⟨rest, turn, _, _, _, _, rfl⟩ := taken
      rfl
    · obtain ⟨d, e, opened⟩ := Session.isOpen_cases is_open
      show openSession l tag body t = _
      simp only [openSession, session, opened, refuse_eq]
    · show openSession l tag body t = _
      simp only [openSession, session, lapsed, refuse_eq]
  · obtain ⟨taken, -⟩ := id serves
    have session := session_takesFrame taken l
    refine ⟨fun lapsed => exec_served rfl serves ?_, fun closed => exec_served rfl serves ?_⟩
    · show closeSession l tag body t = _
      simp only [closeSession, session, lapsed, reply_eq, putSessState]
      rfl
    · show closeSession l tag body t = _
      simp only [closeSession, session, closed, refuse_eq]

theorem countRecords_eq_natCard (s : State) (p : RecState → Bool) :
    s.countRecords p = Nat.card { i : RecNo // p (s.record i).state = true } := by
  rw [countRecords_eq_card, Nat.card_eq_fintype_card, Fintype.card_subtype]

theorem free_takesFrame {l : LinkNo} {f : Frame} {s t : State} (taken : TakesFrame l f s t) (n : LinkNo) :
    (t.link n).free = (s.link n).free ∧ (t.link n).counters = (s.link n).counters := by
  obtain ⟨outbound, reserved⟩ := account_of_takesFrame taken n
  refine ⟨by simp only [LinkUnit.free, LinkUnit.queued, outbound, reserved], ?_⟩
  obtain ⟨rest, turn, _, _, _, _, rfl⟩ := taken
  rw [State.link, Vector.get_set_fin]
  split
  · next same => rw [← same]
  · rfl

/-- Settles O31: the two values and the one clearing. -/
theorem renewAndStatusAnswer : Obligations.RenewAndStatusAnswer := by
  refine ⟨fun l tag body s t serves => exec_served rfl serves ?_, fun l tag s t serves => exec_served rfl serves ?_,
    fun l tag s t serves => exec_served rfl serves ?_⟩
  · obtain ⟨⟨rest, turn, _, _, _, _, rfl⟩, -⟩ := serves
    exact reply_eq l tag _ _
  · obtain ⟨taken, -⟩ := id serves
    obtain ⟨free, counters⟩ := free_takesFrame taken l
    obtain ⟨outbound, -⟩ := account_of_takesFrame taken l
    have selected : status l tag [0] t = reply l tag (linkStatus l t) (clearCounters l t) := rfl
    have message : linkStatus l t = .doneStatusLink (s.session l).state.code (s.session l).tags.length
        (s.session l).owned (40 - (s.link l).outbound.length - (s.link l).reserved) (s.link l).counters := by
      rw [linkStatus, session_takesFrame taken l, free, counters]
      rfl
    show status l tag [0] t = _
    rw [selected, message, reply_eq]
    simp only [State.link] at outbound
    simp [withReply, clearCounters, State.putLink, State.link, Vector.get_set_fin, Counters.zero, outbound]
  · obtain ⟨taken, -⟩ := id serves
    have records := countRecords_eq_natCard s
    have message : partStatus t = .doneStatusPart s.service s.epoch s.tokens
        (Nat.card { i : RecNo // (s.record i).state ≠ .free })
        (Nat.card { i : RecNo // (s.record i).state.isWaiting = true })
        (Nat.card { i : RecNo // (s.record i).state.isWatching = true }) s.uptime := by
      have used := records (· ≠ .free)
      simp only [decide_eq_true_eq] at used
      rw [← used, ← records, ← records]
      obtain ⟨rest, turn, _, _, _, _, rfl⟩ := taken
      rfl
    have selected : status l tag [1] t = reply l tag (partStatus t) t := rfl
    show status l tag [1] t = _
    rw [selected, message, reply_eq]

end Sys2Proof.Machine
end


section
/-! PROOFS. ACQUIRE, CONVERT, WATCH and QUERY (R36, R38, R60, R61, R64, R79 to R81, R88). -/

namespace Sys2Proof.Machine

open Sys2Proof.Safety

/-! ### What the dispatcher leaves -/

theorem lowestFree_takesFrame {l : LinkNo} {f : Frame} {s t : State} {i : RecNo} (taken : TakesFrame l f s t)
    (free : LowestFree s i) : t.lowestFree = some i := by
  rw [lowestFree_eq_some_iff, LowestFree, (pool_of_takesFrame taken).1]
  exact free

theorem roomTest_takesFrame {l m : LinkNo} {f : Frame} {s t : State} {i : RecNo} (taken : TakesFrame l f s t)
    (quota : BelowQuota s m) (free : LowestFree s i) {full : Bool} (room : full = false) : roomTest m full t = none := by
  refine (roomTest_eq_none_iff m full t).2 ⟨?_, ?_, room⟩
  · obtain ⟨rest, turn, _, _, _, _, rfl⟩ := taken
    exact quota
  · rw [lowestFree_takesFrame taken free]
    exact Option.some_ne_none i

theorem reserveHold_eq (l : LinkNo) (hold : Nat) (s : State) : reserveHold l (holdLimitOf hold) s = s.putLink l
    { s.link l with reserved := (s.link l).reserved + if hold = 0 then 0 else 1 } := by
  by_cases none : hold = 0
  · simp only [reserveHold, holdLimitOf, none, if_true, Option.isSome_none, Bool.false_eq_true, if_false, Nat.add_zero]
    exact (State.putLink_link_self s l).symm
  · simp [reserveHold, holdLimitOf, none, reserve]

/-! ### ACQUIRE -/

theorem acquire_of_alone {l : LinkNo} {tag : Byte} {body : List Byte} {m : Mode} {w : Window} {s : State}
    (code : Mode.ofCode (AcquireReq.ofBody body).mode = some m) (admits : Admits s l (AcquireReq.ofBody body).block w)
    (access : ¬ (m = .exclusive ∧ w.access = .sharedOnly))
    (alone : ∀ j, ¬ ConflictsWith s j (w.translate (AcquireReq.ofBody body).block) m) :
    acquire l tag body s =
      grantAtOnce l tag (w.translate (AcquireReq.ofBody body).block) m (AcquireReq.ofBody body).hold s := by
  simp only [acquire, admitAcquire_eq s l _ _ m w admits code access, claimConflicts_eq_false s _ m alone,
    Bool.false_eq_true, if_false]

theorem grantAtOnce_eq {l : LinkNo} {tag : Byte} {b : Block} {m : Mode} {hold : Nat} {i : RecNo} {s : State}
    (room : roomTest l false s = none) (free : s.lowestFree = some i) (unspent : s.tokens ≠ 0xFFFFFFFF) :
    grantAtOnce l tag b m hold s = { s with
      tokens := s.tokens + 1
      records := s.records.set i { reuse := (s.record i).reuse, state := .held l b m (s.tokens + 1) (holdFrom s hold) }
      sessions := s.sessions.set l { s.session l with owned := (s.session l).owned + 1 }
      links := s.links.set l { s.link l with
        outbound := (s.link l).outbound ++
          [{ tag := tag, msg := .doneHolding (s.handle i) (s.tokens + 1) m, adopts := false }]
        reserved := (s.link l).reserved + (if hold = 0 then 0 else 1) } } := by
  have unspent : s.tokensSpent = false := decide_eq_false unspent
  simp only [grantAtOnce, room, free, unspent, Bool.false_eq_true, if_false, reserveHold_eq, allocate_eq, armHold_eq]
  simp [reply, queueFree, State.putLink, issueToken, State.nextToken, State.link, Vector.get_set_fin]

/-- Settles O34: `grantAtOnce` in the state that the dispatcher leaves. -/
theorem acquireGrantsAtOnce : Obligations.AcquireGrantsAtOnce := by
  intro l tag body q m w i s t serves fields code admits access alone quota free unspent
  subst fields
  obtain ⟨taken, -⟩ := id serves
  obtain ⟨outbound, reserved⟩ := account_of_takesFrame taken l
  have unspent' : t.tokens ≠ 0xFFFFFFFF := by rw [(pool_of_takesFrame taken).2.2]; exact unspent
  refine exec_served rfl serves ((acquire_of_alone code (admits_of_takesFrame taken admits) access ?_).trans
    ((grantAtOnce_eq (roomTest_takesFrame taken quota free rfl) (lowestFree_takesFrame taken free) unspent').trans ?_))
  · exact fun j conflict => alone j (by simpa [ConflictsWith, (pool_of_takesFrame taken).1] using conflict)
  · rw [outbound, reserved]
    obtain ⟨rest, turn, _, _, _, _, rfl⟩ := taken
    rfl

theorem enterWaitList_eq {l : LinkNo} {tag : Byte} {b : Block} {m : Mode} {wait hold : Nat} {i : RecNo} {s : State}
    (room : roomTest l s.waitListFull s = none) (free : s.lowestFree = some i) :
    enterWaitList l tag b m wait hold s = { s with
      records := s.records.set i { reuse := (s.record i).reuse
                                   state := .waiting l b m tag (waitFrom s wait) (if hold = 0 then none else some hold) }
      waitList := s.waitList ++ [i]
      sessions := s.sessions.set l { s.session l with
        owned := (s.session l).owned + 1, tags := (s.session l).tags ++ [{ tag := tag, ref := .lockWait i }] }
      links := s.links.set l { s.link l with
        outbound := (s.link l).outbound ++
          [{ tag := tag, msg := .waitingRecord (s.handle i) (s.waitList.length + 1), adopts := false }]
        reserved := (s.link l).reserved + 1 + (if hold = 0 then 0 else 1) } } := by
  simp only [enterWaitList, room, free, reserveHold_eq, openTag_eq, allocate_eq, waitDue_eq]
  simp [reply, queueFree, State.putLink, State.link, State.session, Vector.get_set_fin, holdLimitOf]

/-- Settles O35: `enterWaitList` in the state that the dispatcher leaves. -/
theorem acquireEntersWaitList : Obligations.AcquireEntersWaitList := by
  intro l tag body q m w i s t serves fields code admits access conflict wait quota free room
  subst fields
  obtain ⟨taken, -⟩ := id serves
  obtain ⟨outbound, reserved⟩ := account_of_takesFrame taken l
  obtain ⟨j, conflict⟩ := conflict
  have list : t.waitListFull = false := by
    obtain ⟨rest, turn, _, _, _, _, rfl⟩ := taken
    exact decide_eq_false (not_le.2 room)
  refine exec_served rfl serves ((acquire_of_conflict l tag body m w t code (admits_of_takesFrame taken admits) access
    ⟨j, conflictsWith_of_takesFrame taken conflict⟩).trans ?_)
  rw [if_neg wait, enterWaitList_eq (roomTest_takesFrame taken quota free list) (lowestFree_takesFrame taken free),
    outbound, reserved]
  obtain ⟨rest, turn, _, _, _, _, rfl⟩ := taken
  rfl

end Sys2Proof.Machine
end


section
/-! PROOFS. CONVERT, WATCH and QUERY (R60, R61, R64, R79 to R81, R88). -/

namespace Sys2Proof.Machine

open Sys2Proof.Safety

/-! ### CONVERT -/

theorem convert_of_downgrade {l : LinkNo} {tag : Byte} {body : List Byte} {i : RecNo} {o : LinkNo} {b : Block}
    {token : Word} {h : Option Hold} {s : State} (named : s.named l (ConvertReq.ofBody body).handle = some i)
    (state : (s.record i).state = .held o b .exclusive token h) (mode : (ConvertReq.ofBody body).mode = 0) :
    convert l tag body s = withReply l tag (.doneHolding (s.handle i) token .shared)
      (grantScan { s with records := s.records.set i { reuse := (s.record i).reuse, state := .held o b .shared token h } }) := by
  have code : Mode.ofCode (ConvertReq.ofBody body).mode = some .shared := by rw [mode]; rfl
  simp only [convert, named, code, state, reduceCtorEq, if_false, reply_eq, State.putState, State.putRecord]

theorem upgrade_of_alone {l : LinkNo} {tag : Byte} {i : RecNo} {o : LinkNo} {b : Block} {token : Word} {h : Option Hold}
    {wait : Nat} {s : State} (alone : ∀ j, j ≠ i → ¬ HoldsOver s j b) (unspent : s.tokens ≠ 0xFFFFFFFF) :
    upgrade l tag i o b token h wait s = withReply l tag (.doneHolding (s.handle i) (s.tokens + 1) .exclusive) { s with
      tokens := s.tokens + 1
      records := s.records.set i { reuse := (s.record i).reuse, state := .held o b .exclusive (s.tokens + 1) h } } := by
  have free : s.otherHeldOver i b = false := by
    rw [Bool.eq_false_iff, Ne, otherHeldOver_iff]
    rintro ⟨j, other, holds⟩
    exact alone j other holds
  have unspent : s.tokensSpent = false := decide_eq_false unspent
  simp only [upgrade, free, unspent, Bool.false_eq_true, if_false, reply_eq]
  rfl

theorem upgrade_of_waits {l : LinkNo} {tag : Byte} {i : RecNo} {o : LinkNo} {b : Block} {token : Word} {h : Option Hold}
    {wait : Nat} {s : State} (held : ∃ j, j ≠ i ∧ HoldsOver s j b)
    (settled : ∀ j, j ≠ i → HoldsOver s j b → (s.record j).state.isConverting = false) (waits : wait ≠ 0) :
    upgrade l tag i o b token h wait s = { s with
      records := s.records.set i { reuse := (s.record i).reuse, state := .converting o b token tag (waitFrom s wait) h }
      sessions := s.sessions.set l { s.session l with tags := (s.session l).tags ++ [{ tag := tag, ref := .convert i }] }
      links := s.links.set l { s.link l with
        outbound := (s.link l).outbound ++ [{ tag := tag, msg := .waitingRecord (s.handle i) 0, adopts := false }]
        reserved := (s.link l).reserved + 1 } } := by
  have none : s.otherConvertingOver i b = false := by
    rw [Bool.eq_false_iff, Ne, otherConvertingOver_iff]
    rintro ⟨j, other, holds, converting⟩
    rw [settled j other holds] at converting
    cases converting
  simp only [upgrade, (otherHeldOver_iff s i b).2 held, none, waits, Bool.false_eq_true, if_true, if_false, openTag_eq,
    waitDue_eq, State.putState, State.putRecord]
  simp [reply, queueFree, State.putLink, State.link, State.session, Vector.get_set_fin]

/-- Settles O38: `convert` in the state that the dispatcher leaves. -/
theorem convertChangesMode : Obligations.ConvertChangesMode := by
  intro l tag body q i b token h s t serves fields number reuse
  subst fields
  obtain ⟨taken, -⟩ := id serves
  have record := (pool_of_takesFrame taken).1
  have handle := handle_of_takesFrame taken i
  have named {m : Mode} (state : (s.record i).state = .held l b m token h) :
      t.named l (ConvertReq.ofBody body).handle = some i :=
    named_of_takesFrame taken number (by rw [state]; rfl) reuse
  have same {m : Mode} (state : (s.record i).state = .held l b m token h) :
      (t.record i).state = .held l b m token h := by rw [record]; exact state
  refine ⟨fun state mode => exec_served rfl serves ?_, fun state mode => ⟨fun alone unspent => exec_served rfl serves ?_,
    fun held settled waits => exec_served rfl serves ?_⟩⟩
  · refine (convert_of_downgrade (named state) (same state) mode).trans ?_
    rw [handle]
    obtain ⟨rest, turn, _, _, _, _, rfl⟩ := taken
    rfl
  · have tokens : t.tokens = s.tokens := (pool_of_takesFrame taken).2.2
    refine (convert_of_upgrade l tag body i l b token h t (named state) (same state) mode).trans
      ((upgrade_of_alone (fun j other holds => alone j other ((holdsOver_of_takesFrame taken j b).1 holds))
        (tokens ▸ unspent)).trans ?_)
    rw [handle, tokens, record]
    obtain ⟨rest, turn, _, _, _, _, rfl⟩ := taken
    rfl
  · obtain ⟨outbound, reserved⟩ := account_of_takesFrame taken l
    obtain ⟨j, other, holds⟩ := held
    refine (convert_of_upgrade l tag body i l b token h t (named state) (same state) mode).trans
      ((upgrade_of_waits ⟨j, other, (holdsOver_of_takesFrame taken j b).2 holds⟩ (fun k other holds => ?_) waits).trans ?_)
    · rw [record]
      exact settled k other ((holdsOver_of_takesFrame taken k b).1 holds)
    · rw [handle, outbound, reserved]
      obtain ⟨rest, turn, _, _, _, _, rfl⟩ := taken
      rfl

/-! ### WATCH -/

theorem watch_of_free {l : LinkNo} {tag : Byte} {body : List Byte} {w : Window} {s : State}
    (admits : Admits s l (WatchReq.ofBody body).block w)
    (none : ∀ j, ¬ HoldsOver s j (w.translate (WatchReq.ofBody body).block)) :
    watch l tag body s = withReply l tag .doneEmpty s := by
  have free : s.heldOver (w.translate (WatchReq.ofBody body).block) = false := by
    rw [Bool.eq_false_iff, Ne, heldOver_iff]
    rintro ⟨j, holds⟩
    exact none j holds
  simp only [watch, admitBlock_eq s l _ w admits, free, Bool.false_eq_true, if_false, reply_eq]

theorem watch_of_held {l : LinkNo} {tag : Byte} {body : List Byte} {w : Window} {s : State}
    (admits : Admits s l (WatchReq.ofBody body).block w)
    (held : ∃ j, HoldsOver s j (w.translate (WatchReq.ofBody body).block)) :
    watch l tag body s = if (WatchReq.ofBody body).wait = 0 then withReply l tag (.refused .conflict 0) s
      else enterWatchList l tag (w.translate (WatchReq.ofBody body).block) (WatchReq.ofBody body).wait s := by
  simp only [watch, admitBlock_eq s l _ w admits, (heldOver_iff s _).2 held, if_true, refuse_eq]

theorem enterWatchList_eq {l : LinkNo} {tag : Byte} {b : Block} {wait : Nat} {i : RecNo} {s : State}
    (room : roomTest l s.watchListFull s = none) (free : s.lowestFree = some i) :
    enterWatchList l tag b wait s = { s with
      records := s.records.set i { reuse := (s.record i).reuse, state := .watching l b tag (waitFrom s wait) }
      watchList := s.watchList ++ [i]
      sessions := s.sessions.set l { s.session l with
        owned := (s.session l).owned + 1, tags := (s.session l).tags ++ [{ tag := tag, ref := .watch i }] }
      links := s.links.set l { s.link l with
        outbound := (s.link l).outbound ++
          [{ tag := tag, msg := .waitingRecord (s.handle i) (s.watchList.length + 1), adopts := false }]
        reserved := (s.link l).reserved + 1 } } := by
  simp only [enterWatchList, room, free, openTag_eq, allocate_eq, waitDue_eq]
  simp [reply, queueFree, State.putLink, State.link, State.session, Vector.get_set_fin]

/-- Settles O40: `watch` in the state that the dispatcher leaves. -/
theorem watchAnswersOrWaits : Obligations.WatchAnswersOrWaits := by
  intro l tag body q w s t serves fields admits
  subst fields
  obtain ⟨taken, -⟩ := id serves
  have admits := admits_of_takesFrame taken admits
  have holds := holdsOver_of_takesFrame taken
  refine ⟨fun none => exec_served rfl serves ?_, fun held wait => exec_served rfl serves ?_,
    fun i held wait quota free room => exec_served rfl serves ?_⟩
  · exact watch_of_free admits fun j over_ => none j ((holds j _).1 over_)
  · obtain ⟨j, held⟩ := held
    exact (watch_of_held admits ⟨j, (holds j _).2 held⟩).trans (if_pos wait)
  · obtain ⟨j, held⟩ := held
    obtain ⟨outbound, reserved⟩ := account_of_takesFrame taken l
    have list : t.watchListFull = false := by
      obtain ⟨rest, turn, _, _, _, _, rfl⟩ := taken
      exact decide_eq_false (not_le.2 room)
    refine (watch_of_held admits ⟨j, (holds j _).2 held⟩).trans ((if_neg wait).trans ?_)
    rw [enterWatchList_eq (roomTest_takesFrame taken quota free list) (lowestFree_takesFrame taken free), outbound, reserved]
    obtain ⟨rest, turn, _, _, _, _, rfl⟩ := taken
    rfl

/-! ### QUERY -/

theorem mem_records_iff (s : State) (r : Record) : r ∈ s.records.toList ↔ ∃ i, s.record i = r := by
  rw [Vector.mem_toList_iff, Vector.mem_iff_getElem]
  constructor
  · rintro ⟨i, lt, same⟩
    exact ⟨⟨i, lt⟩, same⟩
  · rintro ⟨i, same⟩
    exact ⟨i.val, i.isLt, same⟩

/-- The greatest of the values of the entries that satisfy `p`, not below `h`. -/
theorem foldl_greatest {α : Type} (p : α → Prop) [DecidablePred p] (f : α → Word) (list : List α) (h : Word)
    (top : Word) (top_eq : top = list.foldl (fun h r => if p r ∧ h < f r then f r else h) h) :
    h ≤ top ∧ (∀ r ∈ list, p r → f r ≤ top) ∧ (top = h ∨ ∃ r ∈ list, p r ∧ f r = top) := by
  induction list generalizing h with
  | nil => subst top_eq; exact ⟨BitVec.le_refl _, by simp, .inl rfl⟩
  | cons r rest ih =>
    obtain ⟨low, above, reached⟩ := ih (if p r ∧ h < f r then f r else h) top_eq
    by_cases raises : p r ∧ h < f r
    · obtain ⟨counts, more⟩ := raises
      rw [if_pos ⟨counts, more⟩] at low reached
      refine ⟨BitVec.le_trans (BitVec.le_of_lt more) low, ?_, .inr ?_⟩
      · intro x listed holds
        rcases List.mem_cons.1 listed with rfl | listed
        · exact low
        · exact above x listed holds
      · rcases reached with same | ⟨x, listed, holds, same⟩
        · exact ⟨r, List.mem_cons_self, counts, same.symm⟩
        · exact ⟨x, List.mem_cons_of_mem r listed, holds, same⟩
    · rw [if_neg raises] at low reached
      refine ⟨low, ?_, ?_⟩
      · intro x listed holds
        rcases List.mem_cons.1 listed with rfl | listed
        · exact BitVec.le_trans (BitVec.not_lt.1 fun less => raises ⟨holds, less⟩) low
        · exact above x listed holds
      · rcases reached with same | ⟨x, listed, holds, same⟩
        · exact .inl same
        · exact .inr ⟨x, List.mem_cons_of_mem r listed, holds, same⟩

theorem highestToken_spec (s : State) (b : Block) :
    (∀ i token, HoldsOver s i b → (s.record i).state.token = some token → token ≤ s.highestToken b) ∧
    (s.highestToken b = 0 ∨ ∃ i, HoldsOver s i b ∧ (s.record i).state.tokenOr0 = s.highestToken b) := by
  obtain ⟨-, above, reached⟩ := foldl_greatest (fun r : Record => r.state.holdsOver b = true) (·.state.tokenOr0)
    s.records.toList 0 (s.highestToken b) rfl
  refine ⟨fun i token holds has => ?_, reached.imp_right ?_⟩
  · have := above (s.record i) ((mem_records_iff s _).2 ⟨i, rfl⟩) ((holdsOver_iff s i b).2 holds)
    rwa [RecState.tokenOr0, has] at this
  · rintro ⟨r, listed, holds, same⟩
    obtain ⟨i, rfl⟩ := (mem_records_iff s r).1 listed
    exact ⟨i, (holdsOver_iff s i b).1 holds, same⟩

theorem token_of_holdsOver {s : State} {i : RecNo} {b : Block} (holds : HoldsOver s i b) :
    ∃ token, (s.record i).state.token = some token := by
  obtain ⟨c, block, -⟩ := holds
  cases state : (s.record i).state with
  | held | converting => exact ⟨_, rfl⟩
  | free | waiting | watching => rw [state] at block; cases block

theorem exclusiveOver_iff (s : State) (b : Block) :
    s.records.toList.any (fun r => r.state.exclusiveOver b) = true ↔
      ∃ i c, (s.record i).state.holding = some (c, .exclusive) ∧ b.overlaps c = true := by
  rw [Vector.any_toList_iff]
  refine exists_congr fun i => ?_
  show (s.record i).state.exclusiveOver b = true ↔ _
  unfold RecState.exclusiveOver
  cases holding : (s.record i).state.holding with
  | none => simp
  | some x => obtain ⟨c, m⟩ := x; simp [and_comm]

theorem waitsOver_iff (x : RecState) (b : Block) :
    x.waitsOver b = true ↔ ∃ o c m g d h, x = .waiting o c m g d h ∧ b.overlaps c = true := by
  cases x <;> simp [RecState.waitsOver]

theorem query_of_admits {l : LinkNo} {tag : Byte} {body : List Byte} {w : Window} {s : State}
    (admits : Admits s l (queryBlock body) w) :
    query l tag body s = withReply l tag (queryAnswer (w.translate (queryBlock body)) s) s := by
  simp only [query, admitBlock_eq s l _ w admits, reply_eq]

/-- Settles O41: the counts and the greatest token over the pool. -/
theorem queryAnswersFourValues : Obligations.QueryAnswersFourValues := by
  intro l tag body w b s t serves admits block
  subst block
  obtain ⟨taken, -⟩ := id serves
  have answered : queryAnswer (w.translate (queryBlock body)) t = queryAnswer (w.translate (queryBlock body)) s := by
    obtain ⟨rest, turn, _, _, _, _, rfl⟩ := taken
    rfl
  obtain ⟨above, reached⟩ := highestToken_spec s (w.translate (queryBlock body))
  refine ⟨_, _, _, _, exec_served rfl serves
    ((query_of_admits (admits_of_takesFrame taken admits)).trans (by rw [answered]; rfl)), ?_, exclusiveOver_iff s _, ?_,
    fun none => ?_, above, fun some_ => ?_⟩
  · rw [countRecords_eq_natCard]
    exact Nat.card_congr (Equiv.subtypeEquivRight fun i => holdsOver_iff s i _)
  · rw [countRecords_eq_natCard]
    exact Nat.card_congr (Equiv.subtypeEquivRight fun i => waitsOver_iff _ _)
  · rcases reached with zero | ⟨i, holds, -⟩
    · exact zero
    · exact absurd holds (none i)
  · rcases reached with zero | ⟨i, holds, same⟩
    · obtain ⟨i, holds⟩ := some_
      obtain ⟨token, has⟩ := token_of_holdsOver holds
      have low := above i token holds has
      rw [zero] at low
      have none : token = 0 := by bv_omega
      exact ⟨i, holds, by rw [has, none, zero]⟩
    · obtain ⟨token, has⟩ := token_of_holdsOver holds
      exact ⟨i, holds, by rw [has, ← same, RecState.tokenOr0, has]; rfl⟩

end Sys2Proof.Machine
end


section
/-! PROOFS. CANCEL and ARRIVE (R53, R67, R84, R101, R94 to R96). -/

namespace Sys2Proof.Machine

open Sys2Proof.Safety

/-! ### CANCEL -/

theorem cancel_of_open {l : LinkNo} {tag target : Byte} {x : OpenTag} {s : State}
    (found : (s.session l).lookup target = some x) : cancel l tag [target] s =
      withReply l tag (.doneCancel target) (scanAfterCancel x.ref (cancelEntry l x s)) := by
  have selected : byteAt [target] 0 = target := rfl
  simp only [cancel, selected, found, reply_eq]

/-- Settles O32: each kind of tag by its cancellation. -/
theorem cancelConcludesOpenTag : Obligations.CancelConcludesOpenTag := by
  intro l tag target s t serves
  obtain ⟨taken, -⟩ := id serves
  have record := (pool_of_takesFrame taken).1
  have session := session_takesFrame taken l
  obtain ⟨outbound, reserved⟩ := account_of_takesFrame taken l
  refine ⟨fun i b m w h found state => exec_served rfl serves ?_, fun i b token w h found state =>
    exec_served rfl serves ?_, fun i b w found state => exec_served rfl serves ?_, fun g found =>
    exec_served rfl serves ?_⟩
  · refine (cancel_of_open (session ▸ found)).trans ?_
    show withReply l tag (.doneCancel target) (grantScan (endLockWait i .cancelledRecord t)) = _
    rw [endLockWait_eq i .cancelledRecord l b m target w h t (record ▸ state), handle_of_takesFrame taken i, outbound,
      reserved]
    obtain ⟨rest, turn, _, _, _, _, rfl⟩ := taken
    rfl
  · refine (cancel_of_open (session ▸ found)).trans ?_
    show withReply l tag (.doneCancel target) (grantScan (endConversion i .cancelledRecord t)) = _
    rw [endConversion_eq i .cancelledRecord l b token target w h t (record ▸ state), handle_of_takesFrame taken i,
      outbound, reserved]
    obtain ⟨rest, turn, _, _, _, _, rfl⟩ := taken
    rfl
  · refine (cancel_of_open (session ▸ found)).trans ?_
    show withReply l tag (.doneCancel target) (grantScan (endWatch i .cancelledRecord t)) = _
    rw [endWatch_eq i .cancelledRecord l b target w t (record ▸ state), handle_of_takesFrame taken i, outbound, reserved]
    obtain ⟨rest, turn, _, _, _, _, rfl⟩ := taken
    rfl
  · refine (cancel_of_open (session ▸ found)).trans ?_
    show withReply l tag (.doneCancel target) (withdraw l target g t) = _
    rw [withdraw_eq, outbound, reserved]
    obtain ⟨rest, turn, _, _, _, _, rfl⟩ := taken
    simp [withReply, State.link, State.session, State.group, Vector.get_set_fin]

/-! ### ARRIVE -/

theorem completes_iff (s : State) (g : GroupNo) (l : LinkNo) : s.completes g l = true ↔
    ((s.groupDef g).mode = .all ∧ ∀ m, m ≠ l → s.isLive g m = true → ∃ a ∈ (s.group g).arrivals, a.link = m) ∨
    ((s.groupDef g).mode = .quorum ∧ (s.group g).arrivals.length + 1 = (s.groupDef g).k) := by
  unfold State.completes
  cases mode : (s.groupDef g).mode with
  | all =>
    simp only [allArrived_iff, true_and, reduceCtorEq, false_and, or_false, Option.some.injEq]
    refine ⟨fun all m other live => (all m live).resolve_right fun same => other same.symm, fun all m live => ?_⟩
    by_cases same : m = l
    · exact .inr same.symm
    · exact .inl (all m same live)
  | quorum => simp

theorem arrive_of_member {l : LinkNo} {tag : Byte} {body : List Byte} {g : GroupNo} {s : State}
    (group : (ArriveReq.ofBody body).group.toNat = g.val) (member : (s.groupDef g).has l = true)
    (fresh : ∀ a ∈ (s.group g).arrivals, a.link ≠ l) : arrive l tag body s =
      if s.completes g l then reply l tag (.doneArrive g (s.group g).generation ((s.group g).arrivals.length + 1)
          ((s.group g).arrivals.length + 1)) (passRound g ((s.group g).arrivals.length + 1) s)
      else if (ArriveReq.ofBody body).wait = 0 then refuse l tag .notReady 0 s
      else appendArrival l tag g (ArriveReq.ofBody body).wait s := by
  have absent : hasArrived (s.group g).arrivals l = false := by
    rw [Bool.eq_false_iff, Ne, hasArrived_iff]
    rintro ⟨a, listed, link⟩
    exact fresh a listed link
  simp only [arrive, (groupOf_eq_some_iff _ g).2 group, member, absent, Bool.not_true, Bool.false_eq_true, if_false]

theorem appendArrival_eq (l : LinkNo) (tag : Byte) (g : GroupNo) (wait : Nat) (s : State) :
    appendArrival l tag g wait s = { s with
      groups := s.groups.set g { s.group g with
        arrivals := (s.group g).arrivals ++ [{ link := l, tag := tag, due := waitFrom s wait }] }
      sessions := s.sessions.set l { s.session l with
        tags := (s.session l).tags ++ [{ tag := tag, ref := .arrival g }] }
      links := s.links.set l { s.link l with
        outbound := (s.link l).outbound ++
          [{ tag := tag, adopts := false
             msg := .waitingArrive g (s.group g).generation ((s.group g).arrivals.length + 1) }]
        reserved := (s.link l).reserved + 1 } } := by
  simp only [appendArrival, waitDue_eq, openTag_eq, State.putGroup]
  simp [reply, queueFree, State.putLink, State.link, State.session, Vector.get_set_fin]

theorem group_passRound (g h : GroupNo) (count : Nat) (s : State) : (passRound g count s).group h =
    if g = h then { generation := (s.group g).generation + 1, arrivals := [] } else s.group h := by
  simp only [passRound, endRound, State.group_putGroup, group_notifyArrivals]

/-- What a round that passes leaves of the accounts. -/
theorem told_passRound (g : GroupNo) (count : Nat) (s : State) (distinct : ((s.group g).arrivals.map (·.link)).Nodup)
    (r : Nat) (lt : r < (s.group g).arrivals.length) :
    Told (.passed g (s.group g).generation (r + 1) count) (s.group g).arrivals[r] s (passRound g count s) := by
  have told := told_notifyArrivals (fun rank => .passed g (s.group g).generation rank count) 1 (s.group g).arrivals s
    distinct r lt
  rw [Nat.add_comm 1 r] at told
  exact told

theorem sameAccount_passRound (g : GroupNo) (count : Nat) (k : LinkNo) (s : State)
    (absent : ∀ a ∈ (s.group g).arrivals, a.link ≠ k) : SameAccount k s (passRound g count s) :=
  sameAccount_notifyArrivals (fun rank => .passed g (s.group g).generation rank count) k 1 (s.group g).arrivals s absent

theorem link_reply (l m : LinkNo) (tag : Byte) (msg : Message) (s : State) : (reply l tag msg s).link m =
    if l = m then { s.link l with
      outbound := (s.link l).outbound ++ [{ tag := tag, msg := msg, adopts := false }] } else s.link m := by
  simp only [reply, queueFree, State.link_putLink]

theorem link_takesFrame_ne {l m : LinkNo} {f : Frame} {s t : State} (taken : TakesFrame l f s t) (other : l ≠ m) :
    t.link m = s.link m := by
  obtain ⟨rest, turn, _, _, _, _, rfl⟩ := taken
  rw [State.link, Vector.get_set_fin, if_neg other, State.link]

/-- Settles O42: `arrive` in the state that the dispatcher leaves. -/
theorem arriveCompletesOrWaits : Obligations.ArriveCompletesOrWaits := by
  intro l tag body q g s t serves fields group member fresh distinct complete completes
  subst fields
  obtain ⟨taken, -⟩ := id serves
  have same : t.group = s.group ∧ t.groupDef = s.groupDef ∧ t.isLive = s.isLive := by
    obtain ⟨rest, turn, _, _, _, _, rfl⟩ := taken
    exact ⟨rfl, rfl, rfl⟩
  obtain ⟨groups, defs, live⟩ := same
  have judged : t.completes g l = true ↔ complete := by
    rw [completes, completes_iff, groups, defs, live]
  have arrived := arrive_of_member (tag := tag) group (defs ▸ member) (groups ▸ fresh)
  obtain ⟨outbound, reserved⟩ := account_of_takesFrame taken l
  refine ⟨fun holds => ?_, fun not wait => exec_served rfl serves (arrived.trans ?_),
    fun not wait => exec_served rfl serves (arrived.trans ?_)⟩
  · rw [if_pos (judged.2 holds), groups] at arrived
    have control := (Works.frame ((works_passRound g ((s.group g).arrivals.length + 1) t).trans
      (works_reply l tag (.doneArrive g (s.group g).generation ((s.group g).arrivals.length + 1)
        ((s.group g).arrivals.length + 1)) _))).1
    have group_eq := group_passRound g (count := (s.group g).arrivals.length + 1) (s := t)
    have pool := pool_passRound g ((s.group g).arrivals.length + 1) t
    have told := told_passRound g ((s.group g).arrivals.length + 1) t (groups ▸ distinct)
    have kept := fun k => sameAccount_passRound g ((s.group g).arrivals.length + 1) k t
    rw [groups] at told kept group_eq
    obtain ⟨u, passed⟩ : ∃ u, u = passRound g ((s.group g).arrivals.length + 1) t := ⟨_, rfl⟩
    rw [← passed] at arrived control group_eq pool told kept
    obtain ⟨records, waitList, watchList, tokens⟩ := (State.pool_eq_iff s u).1 (pool.trans (pool_takesFrame taken))
    refine ⟨_, exec_served rfl serves arrived, control, (group_eq g).trans (if_pos rfl),
      fun h other => (group_eq h).trans (if_neg (Ne.symm other)), fun r lt a entry => ?_, ?_,
      ((kept l fresh).2).trans (session_takesFrame taken l), fun m other absent => ?_, records, waitList, watchList, tokens⟩
    · subst entry
      obtain ⟨link, session⟩ := told r lt
      have other : l ≠ ((s.group g).arrivals[r]).link := fun same => fresh _ (List.getElem_mem lt) same.symm
      rw [link_reply, if_neg other, link, link_takesFrame_ne taken other]
      exact ⟨rfl, session.trans (by rw [session_takesFrame taken])⟩
    · rw [link_reply, if_pos rfl, (kept l fresh).1, outbound]
    · rw [link_reply, if_neg (Ne.symm other), (kept m absent).1, link_takesFrame_ne taken (Ne.symm other)]
      exact ⟨rfl, ((kept m absent).2).trans (session_takesFrame taken m)⟩
  · rw [if_neg (judged.not.2 not), if_pos wait, refuse_eq]
  · rw [if_neg (judged.not.2 not), if_neg wait, appendArrival_eq, outbound, reserved]
    obtain ⟨rest, turn, _, _, _, _, rfl⟩ := taken
    rfl

end Sys2Proof.Machine
end


section
/-! PROOFS. The setting requests, RESTART and PROFILE (R162 to R164, R166, R167). -/

namespace Sys2Proof.Machine

open Sys2Proof.Safety

/-! ### SET_LINK -/

/-- A link unit whose link is turned off or on (R146). -/
def switched (old new : LinkSettings) (u : LinkUnit) : LinkUnit :=
  if old.enabled = true ∧ new.enabled = false then { u with
    receiver := .hunt, inCharacter := false, gapTimer := .stopped, intake := [], outbound := survivors u }
  else if old.enabled = false ∧ new.enabled = true then { u with
    receiver := .hunt, inCharacter := false, gapTimer := .stopped
    transmitter := .idle, outbound := discarded u }
  else u

theorem writeLink_eq (n : LinkNo) (new : LinkSettings) (s : State) : writeLink n new s = { s with
    profile := { s.profile with links := s.profile.links.set n new }
    links := s.links.set n (if s.management = some n ∨ (new.baud = (s.settings n).baud ∧ new.gap = (s.settings n).gap)
      then switched (s.settings n) new (s.link n)
      else adopted new (switched (s.settings n) new (s.link n))) } := by
  have turned (t : State) : (if (s.settings n).enabled && !new.enabled then disableLink n t
      else if !(s.settings n).enabled && new.enabled then enableLink n t else t) =
      t.putLink n (switched (s.settings n) new (t.link n)) := by
    unfold switched
    cases (s.settings n).enabled <;> cases new.enabled <;>
      simp [disableLink, enableLink, keptByFlush_eq, lostByFlush_eq]
  simp only [writeLink, turned, adopt_eq]
  by_cases later : s.management = some n ∨ (new.baud = (s.settings n).baud ∧ new.gap = (s.settings n).gap)
  · have later' : (decide (s.management = some n) || decide (new.baud = (s.settings n).baud) &&
        decide (new.gap = (s.settings n).gap)) = true := by simpa using later
    simp only [later', later, if_true]
    rfl
  · have later' : (decide (s.management = some n) || decide (new.baud = (s.settings n).baud) &&
        decide (new.gap = (s.settings n).gap)) = false := by simpa using later
    simp only [later', later, Bool.false_eq_true, if_false, State.putLink_settings, settings_writeLinks, if_true,
      State.link_putLink_self, State.putLink_putLink]
    rfl

theorem badField_of_range {q : SetLinkReq} {l n : LinkNo} (link : q.link.toNat = n.val)
    (enabled : q.enabled = 1 ∨ q.enabled = 0 ∧ n ≠ l) (baud : q.baud ≤ 7) (gapLow : 2 ≤ q.gap) (gapHigh : q.gap ≤ 250)
    (leaseLow : 50 ≤ q.lease) (leaseHigh : q.lease ≤ 60000) (quotaLow : 1 ≤ q.quota) (quotaHigh : q.quota ≤ 128)
    (weightLow : 1 ≤ q.weight) (weightHigh : q.weight ≤ 4) : q.badField (some l) = none := by
  have found := (linkOf_eq_some_iff q.link n).2 link
  have field : (decide (1 < q.enabled.toNat) ||
      (decide (q.enabled = 0) && (some n).isSome && decide (some n = some l))) = false := by
    rcases enabled with on | ⟨off, other⟩
    · simp [on]
    · simp [off, other]
  rw [SetLinkReq.badField, firstFailure_eq_none_iff]
  simp only [List.mem_cons, List.not_mem_nil, or_false, forall_eq_or_imp, forall_eq, found, field]
  simp
  omega

/-- Settles O43: `writeLink` in the state that the dispatcher leaves. -/
theorem setLinkWritesSettings : Obligations.SetLinkWritesSettings := by
  intro l tag body q n old new u v s t serves fields link enabled baud gapLow gapHigh leaseLow leaseHigh quotaLow
    quotaHigh weightLow weightHigh old_eq new_eq u_eq v_eq
  subst fields
  obtain ⟨taken, -, -, manages, -⟩ := id serves
  have manager : t.management = some l := by
    obtain ⟨rest, turn, _, _, _, _, rfl⟩ := taken
    exact manages rfl
  have settings : t.settings = s.settings ∧ t.profile = s.profile := by
    obtain ⟨rest, turn, _, _, _, _, rfl⟩ := taken
    exact ⟨rfl, rfl⟩
  obtain ⟨settings, profile⟩ := settings
  have written : (SetLinkReq.ofBody body).settings = new := by rw [new_eq]; rfl
  have baud_eq : (SetLinkReq.ofBody body).baud = new.baud := by rw [new_eq]
  have gap_eq : (SetLinkReq.ofBody body).gap = new.gap := by rw [new_eq]
  have unit : switched old new (t.link n) = u := u_eq.symm
  have fine := badField_of_range (l := l) link enabled baud gapLow gapHigh leaseLow leaseHigh quotaLow quotaHigh
    weightLow weightHigh
  have unit' : (if t.management = some n ∨ (new.baud = old.baud ∧ new.gap = old.gap) then switched old new (t.link n)
      else adopted new (switched old new (t.link n))) = v := by
    rw [manager, unit, v_eq, adopted]
    by_cases own : l = n
    · simp [own]
    · have other : n ≠ l := Ne.symm own
      by_cases kept : new.baud = old.baud ∧ new.gap = old.gap
      · simp [kept]
      · by_cases done : u.baud = new.baud ∧ u.gap = new.gap
        · simp [done]
        · simp [own, other, kept, done]
  have carried : (decide (t.management = some n) &&
      (decide (new.baud ≠ old.baud) || decide (new.gap ≠ old.gap))) =
      decide (n = l ∧ (new.baud ≠ old.baud ∨ new.gap ≠ old.gap)) := by
    by_cases own : l = n
    · simp [manager, own]
    · simp [manager, own, Ne.symm own]
  refine exec_served rfl serves ?_
  show setLink l tag body t = _
  simp only [setLink, manager, fine, (linkOf_eq_some_iff _ n).2 link, written, baud_eq, gap_eq, settings, ← old_eq]
  rw [← manager, carried, writeLink_eq, settings, ← old_eq, unit', profile]
  rfl

/-! ### SET_WINDOW and SET_GROUP -/

theorem setWindow_of_range {l : LinkNo} {tag : Byte} {body : List Byte} {q : SetWindowReq} {n : LinkNo} {k : WindowNo}
    {a : Access} {s : State} (fields : q = SetWindowReq.ofBody body) (link : q.link.toNat = n.val)
    (index : q.index.toNat = k.val) (exp : q.exp ≤ 24) (localBase : q.localBase % 2 ^ q.exp = 0)
    (globalBase : q.globalBase % 2 ^ q.exp = 0) (access : Access.ofCode q.access = some a) :
    setWindow l tag body s = withReply l tag .doneEmpty (writeWindow n k
      { localBase := q.localBase, exp := q.exp, globalBase := q.globalBase, access := a } s) := by
  have linked := (linkOf_eq_some_iff q.link n).2 link
  have indexed := (windowOf_eq_some_iff q.index k).2 index
  have small : decide (Config.maxExponent < q.exp) = false := decide_eq_false (not_lt.2 exp)
  have fine : q.badField = none := by
    rw [SetWindowReq.badField, firstFailure_eq_none_iff]
    simp only [List.mem_cons, List.not_mem_nil, or_false, forall_eq_or_imp, forall_eq, linked, indexed, access, localBase,
      globalBase, small]
    simp
  simp only [setWindow, ← fields, fine, linked, indexed, access, reply_eq]

theorem setGroup_of_range {l : LinkNo} {tag : Byte} {body : List Byte} {q : SetGroupReq} {g : GroupNo} {m : GroupMode}
    {set : BitVec 6} {s : State} (fields : q = SetGroupReq.ofBody body) (group : q.group.toNat = g.val)
    (members : q.members = set.setWidth 8) (mode : GroupMode.ofCode q.mode = some m) (low : 1 ≤ q.k) (high : q.k ≤ 6)
    (enough : set ≠ 0 → q.k ≤ memberCount set) :
    setGroup l tag body s = withReply l tag .doneEmpty (writeGroup g { members := set, mode := m, k := q.k } s) := by
  have grouped := (groupOf_eq_some_iff q.group g).2 group
  have narrow : q.members.setWidth 6 = set := by rw [members]; simp
  have small : (q.members.getLsbD 6 || q.members.getLsbD 7) = false := by
    rw [Bool.eq_false_iff, Ne, highMember_iff, members, BitVec.toNat_setWidth]
    have := set.isLt
    omega
  have count : (decide (set ≠ 0) && decide (memberCount set < q.k)) = false := by
    by_cases none : set = 0
    · simp [none]
    · simp [enough none]
  have fine : q.badField = none := by
    rw [SetGroupReq.badField, firstFailure_eq_none_iff]
    simp only [List.mem_cons, List.not_mem_nil, or_false, forall_eq_or_imp, forall_eq, grouped, mode, small, narrow, count]
    simp
    omega
  simp only [setGroup, ← fields, fine, grouped, mode, reply_eq, narrow]

/-- Settles O44: the profile of the state that the dispatcher leaves is that before. -/
theorem setWindowAndSetGroupWrite : Obligations.SetWindowAndSetGroupWrite := by
  refine ⟨fun l tag body q n k a s t serves fields link index exp localBase globalBase access =>
    exec_served rfl serves ?_, fun l tag body q g m set s t serves fields group members mode low high enough =>
    exec_served rfl serves ?_⟩
  · refine (setWindow_of_range fields link index exp localBase globalBase access).trans ?_
    obtain ⟨⟨rest, turn, _, _, _, _, rfl⟩, -⟩ := serves
    rfl
  · refine (setGroup_of_range fields group members mode low high enough).trans ?_
    obtain ⟨⟨rest, turn, _, _, _, _, rfl⟩, -⟩ := serves
    rfl

/-! ### PROFILE -/

theorem profileItem_takesFrame {l : LinkNo} {f : Frame} {s t : State} (taken : TakesFrame l f s t) (selector index : Nat) :
    profileItem selector index t = profileItem selector index s := by
  obtain ⟨rest, turn, _, _, _, _, rfl⟩ := taken
  obtain ⟨u, unit⟩ : ∃ u : LinkUnit, u = { s.link l with intake := rest } := ⟨_, rfl⟩
  have adopted (n : LinkNo) : ((s.links.set l u).get n).baud = (s.links.get n).baud ∧
      ((s.links.set l u).get n).gap = (s.links.get n).gap := by
    rw [Vector.get_set_fin]
    split
    · next same => rw [unit, ← same]; exact ⟨rfl, rfl⟩
    · exact ⟨rfl, rfl⟩
  rw [← unit]
  simp only [profileItem, State.link, adopted]
  rfl

theorem profile_of_item {l : LinkNo} {tag selector index : Byte} {m : Message} {s t : State}
    (serves : Serves .profile l tag [selector, index] s t) (item : profileItem selector.toNat index.toNat s = .ok m) :
    exec (.profile l tag [selector, index]) s = .next (withReply l tag m t) := by
  have item : profileItem selector.toNat index.toNat t = .ok m := by
    obtain ⟨taken, -⟩ := serves
    rw [← item]
    exact profileItem_takesFrame taken _ _
  have first : fieldAt [selector, index] 0 1 = selector.toNat := by simp [fieldAt, fromBytes]
  have second : fieldAt [selector, index] 1 1 = index.toNat := by simp [fieldAt, fromBytes]
  refine exec_served rfl serves ?_
  show profile l tag [selector, index] t = _
  simp only [profile, first, second, item, reply_eq]

/-- Settles O47: `profileItem` at each selector. -/
theorem profileReadsBack : Obligations.ProfileReadsBack := by
  intro l tag selector index s t serves
  refine ⟨fun n zero number => profile_of_item serves ?_, fun n k one number => profile_of_item serves ?_,
    fun g two number => profile_of_item serves ?_, fun three zero => profile_of_item serves ?_, fun high => ?_⟩
  · have six : n.val < 6 := n.isLt
    simp [profileItem, zero, number]
  · have few : 4 * n.val + k.val < 24 := by omega
    have link : (4 * n.val + k.val) / 4 = n.val := by omega
    have place : (4 * n.val + k.val) % 4 = k.val := by omega
    simp [profileItem, one, number, few, link, place]
  · have eight : g.val < 8 := g.isLt
    simp [profileItem, two, number]
  · simp [profileItem, three, zero]
  · refine exec_served rfl serves (Eq.trans ?_ (refuse_eq l tag .badValue 1 t))
    obtain ⟨taken, -, -, manages, -⟩ := id serves
    have manager : t.management = some l := by
      obtain ⟨rest, turn, _, _, _, _, rfl⟩ := taken
      exact manages rfl
    refine answer_of_badValue (fun _ => manager) (.inl ⟨?_, rfl⟩)
    have first : fieldAt [selector, index] 0 1 = selector.toNat := by simp [fieldAt, fromBytes]
    rw [first]
    exact high

end Sys2Proof.Machine
end


section
/-! PROOFS. RESTART (R166). -/

namespace Sys2Proof.Machine

open Sys2Proof.Safety

theorem endSessions_pool (s : State) : (endSessions s).pool = s.pool :=
  pool_foldl sessionAtRestart (fun t l => by rw [sessionAtRestart_eq, pool_putLink, pool_putSession]) _ s

/-- The state that RESTART leaves before its reply. -/
def restartedState (s : State) : State := clearGroups (clearPool (endSessions { s with service := .setup }))

theorem record_cleared (u : State) (i : RecNo) : (clearGroups (clearPool u)).record i = (u.record i).afterReset :=
  record_clearPool u i

theorem record_restartedState (s : State) (i : RecNo) : (restartedState s).record i = (s.record i).afterReset := by
  obtain ⟨records, -⟩ := (State.pool_eq_iff s _).1 (endSessions_pool { s with service := .setup })
  rw [restartedState, record_cleared, State.record, records, State.record]

theorem session_restartedState (s : State) (m : LinkNo) :
    (restartedState s).session m = { endedSession (s.session m) with owned := 0 } := by
  rw [restartedState, session_cleared, session_endSessions]
  rfl

theorem link_restartedState (s : State) (m : LinkNo) :
    (restartedState s).link m = endedUnit (s.settings m) (s.session m) (s.link m) := by
  rw [restartedState, link_cleared, link_endSessions]
  rfl

/-- The link unit that the sessions' ends leave keeps its receiver and settings but where it adopts. -/
theorem endedUnit_settings (p : LinkSettings) (x : Session) (u v : LinkUnit)
    (after : v = if x.isOpen = true ∧ (discarded u).any (·.adopts) = true then adopted p u else u) :
    (endedUnit p x u).receiver = v.receiver ∧ (endedUnit p x u).gapTimer = v.gapTimer ∧
      (endedUnit p x u).baud = v.baud ∧ (endedUnit p x u).gap = v.gap := by
  subst after
  unfold endedUnit
  by_cases is_open : x.isOpen = true
  · by_cases adopts : (discarded u).any (·.adopts) = true
    · simp only [is_open, adopts, and_self, if_true]
      unfold adopted
      dsimp only
      split <;> simp only [and_self]
    · simp only [is_open, adopts, if_true, if_false, true_and, Bool.false_eq_true, and_self]
  · simp only [is_open, if_false, false_and, Bool.false_eq_true, and_self]

theorem endedUnit_account (p : LinkSettings) (x : Session) (u : LinkUnit) :
    (x.isOpen = true → (endedUnit p x u).reserved = 0 ∧
      (endedUnit p x u).outbound = survivors u ++ [{ tag := 0, msg := .ended .restart, adopts := false }]) ∧
    (x.isOpen = false → endedUnit p x u = u) := by
  refine ⟨fun is_open => ?_, fun shut => by simp [endedUnit, shut]⟩
  obtain ⟨-, -, outbound, reserved, -⟩ := adopted_fields p { u with outbound := survivors u, reserved := 1 }
  unfold endedUnit
  rw [if_pos is_open]
  dsimp only
  split
  · rw [outbound, reserved]
    exact ⟨rfl, rfl⟩
  · exact ⟨rfl, rfl⟩

theorem link_takesFrame_fields {l : LinkNo} {f : Frame} {s t : State} (taken : TakesFrame l f s t) (m : LinkNo) :
    ∃ rest, t.link m = { s.link m with intake := rest } := by
  obtain ⟨rest, turn, _, _, _, _, rfl⟩ := taken
  rw [State.link, Vector.get_set_fin]
  split
  · next same => exact ⟨rest, by rw [← same]⟩
  · exact ⟨(s.link m).intake, rfl⟩

theorem adopted_intake (p : LinkSettings) (u : LinkUnit) (rest : List Frame) :
    adopted p { u with intake := rest } = { adopted p u with intake := rest } := by
  unfold adopted
  dsimp only
  split <;> rfl

/-- The part's own fields after a RESTART. -/
theorem control_restartedState (s : State) : (restartedState s).service = .setup ∧
    (restartedState s).tokens = s.tokens ∧ (restartedState s).epoch = s.epoch ∧
    (restartedState s).profile = s.profile ∧ (restartedState s).straps = s.straps ∧
    (restartedState s).uptime = s.uptime ∧ (restartedState s).clkin = s.clkin ∧
    (restartedState s).rotation = s.rotation := by
  obtain ⟨-, straps, service, epoch, uptime, clkin, profile, rotation, -⟩ :=
    endSessions_control { s with service := .setup }
  have tokens := tokens_endSessions { s with service := .setup }
  unfold restartedState
  generalize endSessions { s with service := .setup } = u at *
  exact ⟨service, tokens, epoch, profile, straps, uptime, clkin, rotation⟩

/-- The link unit of a RESTART in the words of the statement. -/
theorem link_restartedState_takesFrame {l : LinkNo} {f : Frame} {s t : State} (taken : TakesFrame l f s t) (m : LinkNo) :
    (restartedState t).link m =
      { endedUnit (s.settings m) (s.session m) (s.link m) with intake := (t.link m).intake } := by
  have settings : t.settings m = s.settings m := by
    obtain ⟨rest, turn, _, _, _, _, rfl⟩ := taken
    rfl
  obtain ⟨rest, unit⟩ := link_takesFrame_fields taken m
  rw [link_restartedState, session_takesFrame taken m, settings, unit]
  unfold endedUnit
  split
  · dsimp only
    have lost : discarded { s.link m with intake := rest } = discarded (s.link m) := rfl
    have kept : survivors { s.link m with intake := rest } = survivors (s.link m) := rfl
    rw [lost, kept]
    split
    · have intake := adopted_intake (s.settings m) { s.link m with outbound := survivors (s.link m), reserved := 1 } rest
      dsimp only at intake
      rw [intake]
    · rfl
  · rfl

/-- Settles O46: the sessions' ends on each link, the pool and the groups cleared. -/
theorem restartEndsService : Obligations.RestartEndsService := by
  intro l tag body s t serves
  obtain ⟨taken, -⟩ := id serves
  have same : t.tokens = s.tokens ∧ t.epoch = s.epoch ∧ t.profile = s.profile ∧ t.straps = s.straps ∧
      t.uptime = s.uptime ∧ t.clkin = s.clkin := by
    obtain ⟨rest, turn, _, _, _, _, rfl⟩ := taken
    exact ⟨rfl, rfl, rfl, rfl, rfl, rfl⟩
  obtain ⟨tokens', epoch', profile', straps', uptime', clkin'⟩ := same
  have record' := (pool_of_takesFrame taken).1
  have record := record_restartedState t
  have session := session_restartedState t
  have link := link_restartedState_takesFrame taken
  have lists : (restartedState t).waitList = [] ∧ (restartedState t).watchList = [] := ⟨rfl, rfl⟩
  have group (g : GroupNo) : (restartedState t).group g = { generation := 0, arrivals := [] } := group_cleared _ g
  obtain ⟨service, tokens, epoch, profile, straps, uptime, clkin, rotation⟩ := control_restartedState t
  have next : exec (.restart l tag body) s = .next (withReply l tag .doneEmpty (restartedState t)) :=
    exec_served rfl serves (reply_eq l tag .doneEmpty (restartedState t))
  obtain ⟨v, ended⟩ : ∃ v, v = restartedState t := ⟨_, rfl⟩
  rw [← ended] at next record session link lists group service tokens epoch profile straps uptime clkin rotation
  obtain ⟨waitList, watchList⟩ := lists
  have run : v.run = false := by simp [State.run, service]
  have replied (m : LinkNo) : (withReply l tag .doneEmpty v).link m = { v.link m with outbound := (v.link m).outbound ++
      if m = l then [{ tag := tag, msg := .doneEmpty, adopts := false }] else [] } := by
    rw [← reply_eq, link_reply]
    by_cases own : l = m
    · simp [own]
    · simp [own, Ne.symm own]
  refine ⟨_, next, service, run, tokens.trans tokens', epoch.trans epoch', profile.trans profile', straps.trans straps',
    uptime.trans uptime', clkin.trans clkin', rotation, waitList, watchList, group, fun i free => ?_, fun i used => ?_,
    fun m => ?_, fun m u adopts => ?_, fun m is_open => ?_, fun m shut => ?_⟩
  · exact (record i).trans ((afterReset_of_free (by rw [record']; exact free)).trans (by rw [record']))
  · exact (record i).trans ((afterReset_of_used (by rw [record']; exact used)).trans (by rw [record']))
  · obtain ⟨-, counters, transmitter, inCharacter⟩ := endedUnit_kept (s.settings m) (s.session m) (s.link m)
    have state : (v.session m).state = .closed ∧ (v.session m).owned = 0 := by
      rw [session m]
      exact ⟨endedSession_state _, rfl⟩
    rw [replied m, link m]
    exact ⟨state.1, state.2, rfl, counters, transmitter, inCharacter⟩
  · have settings := endedUnit_settings (s.settings m) (s.session m) (s.link m) u adopts
    rw [replied m, link m]
    exact settings
  · obtain ⟨account, -⟩ := endedUnit_account (s.settings m) (s.session m) (s.link m)
    obtain ⟨reserved, outbound⟩ := account is_open
    have tags : (v.session m).tags = [] := by
      obtain ⟨d, e, opened⟩ := Session.isOpen_cases is_open
      rw [session m, session_takesFrame taken m]
      simp only [endedSession, opened]
    rw [replied m, link m]
    exact ⟨tags, reserved, by simp only [outbound]⟩
  · obtain ⟨-, account⟩ := endedUnit_account (s.settings m) (s.session m) (s.link m)
    rw [replied m, link m, account shut]
    exact ⟨rfl, rfl⟩

end Sys2Proof.Machine
end


section
/-! PROOFS. When a deadline has fallen due (R126, R127). -/

namespace Sys2Proof.Machine

open Sys2Proof.Safety

/-- The milliseconds from the due point of an interval to the `n`th millisecond after its arming. -/
theorem past_toNat {before after : Word} {n interval : Nat} (later : after = before + BitVec.ofNat 32 n) (near : n < 2 ^ 31)
    (bounded : interval ≤ 65535) : (after - (before + BitVec.ofNat 32 interval)).toNat =
      if interval ≤ n then n - interval else 2 ^ 32 - (interval - n) := by
  subst later
  have difference : before + BitVec.ofNat 32 n - (before + BitVec.ofNat 32 interval) =
      BitVec.ofNat 32 n - BitVec.ofNat 32 interval := add_sub_add_left_eq_sub _ _ _
  rw [difference, BitVec.toNat_sub, BitVec.toNat_ofNat, BitVec.toNat_ofNat]
  split <;> omega

/-- Settles O8: the difference of the uptimes, and the places within the millisecond. -/
theorem deadlinesFallDueInFull : Obligations.DeadlinesFallDueInFull := by
  intro s t n interval near low bounded later
  have past := past_toNat later near bounded
  have here := s.clkin.isLt
  have there := t.clkin.isLt
  have zero (w : Word) : w ≠ 0 ↔ w.toNat ≠ 0 := by
    rw [Ne, ← BitVec.toNat_inj]
    rfl
  simp only [State.reached, State.due, Bool.and_eq_true, Bool.or_eq_true, decide_eq_true_eq, zero, past, Fin.le_def]
  split <;> omega

end Sys2Proof.Machine
end


section
/-! PROOFS. The account of one link: its open tags, its records, its arrivals and its reservations (R108, R119, R148). -/

namespace Sys2Proof.Machine

open Sys2Proof.Safety

/-! ### The account -/

/-- The record that an open tag of the lock engine names. -/
def TagRef.record : TagRef → Option RecNo
  | .lockWait i | .convert i | .watch i => some i
  | .arrival _ => none

/-- A record of link `m` with a hold reservation. -/
def heldBy (m : LinkNo) (x : RecState) : Bool := x.owner = some m && x.holdReserved

/-- The tags, records and reservations of link `m` agree: `live` says whether the session may own any, `extra` is the number of
reservations beside theirs, and at least `room` entries are free. -/
structure AccountSound (s : State) (m : LinkNo) (live : Bool) (extra room : Nat) : Prop where
  distinct : ((s.session m).tags.map (·.tag)).Nodup
  few : (s.session m).tags.length ≤ 16
  nonzero : ∀ x ∈ (s.session m).tags, x.tag ≠ 0
  names : ∀ x ∈ (s.session m).tags, ∀ i, x.ref.record = some i → waitsUnder i (s.record i).state = some (m, x)
  waits : ∀ i x, waitsUnder i (s.record i).state = some (m, x) → x ∈ (s.session m).tags
  idle : live = false → (s.session m).tags = []
  owns : ∀ i, (s.record i).state.owner = some m → live = true
  account : (s.link m).reserved = (s.session m).tags.length + s.countRecords (heldBy m) + extra
  within : (s.link m).queued + (s.link m).reserved + room ≤ 40
  below : (s.link m).reserved ≤ 39

/-- The arrivals of link `m` and its tags agree, and it is a member of the groups it has arrived at. -/
structure ArrivalSound (s : State) (m : LinkNo) : Prop where
  names : ∀ x ∈ (s.session m).tags, ∀ g, x.ref = .arrival g → ∃ a ∈ (s.group g).arrivals, a.link = m ∧ a.tag = x.tag
  arrived : ∀ g, ∀ a ∈ (s.group g).arrivals, a.link = m →
    ({ tag := a.tag, ref := .arrival g } : OpenTag) ∈ (s.session m).tags
  member : ∀ g, ∀ a ∈ (s.group g).arrivals, a.link = m → (s.groupDef g).has m = true

/-- The links of a list are distinct, and in mode QUORUM the round is not complete (R90). -/
def RoundsSound (s : State) : Prop :=
  ∀ g, ((s.group g).arrivals.map (·.link)).Nodup ∧
    ((s.groupDef g).mode = .quorum → (s.group g).arrivals ≠ [] → (s.group g).arrivals.length < (s.groupDef g).k)

/-- What `SessionsSound` says of link `m`, with at least `room` entries free. -/
def LinkSound (s : State) (m : LinkNo) (room : Nat) : Prop :=
  AccountSound s m (s.session m).isOpen (s.session m).isOpen.toNat room ∧ ArrivalSound s m

/-- What `SessionsSound` says beside the profile and SETUP, with at least `room m` entries free on each link `m`. -/
def SessionsAgree (room : LinkNo → Nat) (s : State) : Prop := (∀ m, LinkSound s m (room m)) ∧ RoundsSound s

theorem tagNames_iff_record (s : State) (m : LinkNo) (x : OpenTag) : tagNames s m x ↔
    (∀ i, x.ref.record = some i → waitsUnder i (s.record i).state = some (m, x)) ∧
      ∀ g, x.ref = .arrival g → ∃ a ∈ (s.group g).arrivals, a.link = m ∧ a.tag = x.tag := by
  rw [tagNames_iff]
  obtain ⟨tag, ref⟩ := x
  cases ref <;> simp [TagRef.record]

theorem sessionsSound_iff (s : State) : SessionsSound s ↔ (SetupIsEmpty s ∧ ProfileInRange s) ∧ SessionsAgree (fun _ => 0) s := by
  constructor
  · rintro ⟨setup, profile, ⟨lists, names, waits, arrived⟩, owners, arrivals, account⟩
    refine ⟨⟨setup, profile⟩, fun m => ⟨?_, ?_⟩, fun g => ?_⟩
    · obtain ⟨distinct, few⟩ := lists m
      obtain ⟨balance, within, below⟩ := account m
      refine ⟨distinct, few, fun x listed => (names m x listed).1, fun x listed => ?_, fun i x => waits i m x,
        fun shut => ?_, fun i => owners i m, balance, within, below⟩
      · obtain ⟨-, named, -⟩ := names m x listed
        exact ((tagNames_iff_record s m x).1 named).1
      · refine List.eq_nil_iff_forall_not_mem.2 fun x listed => ?_
        obtain ⟨-, -, is_open⟩ := names m x listed
        rw [shut] at is_open
        cases is_open
    · refine ⟨fun x listed => ?_, fun g a listed link => ?_, fun g a listed link => ?_⟩
      · obtain ⟨-, named, -⟩ := names m x listed
        exact ((tagNames_iff_record s m x).1 named).2
      · rw [← link]
        exact arrived g a listed
      · obtain ⟨-, live, -⟩ := arrivals g
        rw [← link]
        exact (Bool.and_eq_true_iff.1 (live a listed)).1
    · obtain ⟨distinct, -, quorum⟩ := arrivals g
      exact ⟨distinct, quorum⟩
  · rintro ⟨⟨setup, profile⟩, links, rounds⟩
    have opened {m : LinkNo} {x : OpenTag} (listed : x ∈ (s.session m).tags) : (s.session m).isOpen = true := by
      by_contra shut
      obtain ⟨account, -⟩ := links m
      rw [account.idle (Bool.eq_false_iff.2 shut)] at listed
      cases listed
    refine ⟨setup, profile, ⟨fun m => ⟨(links m).1.distinct, (links m).1.few⟩, fun m x listed => ?_, fun i m x => ?_,
      fun g a listed => ?_⟩, fun i m owner => (links m).1.owns i owner, fun g => ?_, fun m => ?_⟩
    · obtain ⟨account, arrival⟩ := links m
      exact ⟨account.nonzero x listed,
        (tagNames_iff_record s m x).2 ⟨account.names x listed, arrival.names x listed⟩, opened listed⟩
    · exact (links m).1.waits i x
    · exact (links a.link).2.arrived g a listed rfl
    · obtain ⟨distinct, quorum⟩ := rounds g
      refine ⟨distinct, fun a listed => ?_, quorum⟩
      obtain ⟨-, arrival⟩ := links a.link
      exact Bool.and_eq_true_iff.2 ⟨arrival.member g a listed rfl, opened (arrival.arrived g a listed rfl)⟩
    · obtain ⟨account, -⟩ := links m
      exact ⟨account.account, account.within, account.below⟩

/-! ### Records that wait -/

theorem record_of_waitsUnder {i : RecNo} {x : RecState} {m : LinkNo} {z : OpenTag} (waits : waitsUnder i x = some (m, z)) :
    z.ref.record = some i := by
  cases x <;> cases waits <;> rfl

theorem owner_of_waitsUnder {i : RecNo} {x : RecState} {m : LinkNo} {z : OpenTag} (waits : waitsUnder i x = some (m, z)) :
    x.owner = some m := by
  cases x <;> cases waits <;> rfl

theorem tag_inj {tags : List OpenTag} (distinct : (tags.map (·.tag)).Nodup) {x y : OpenTag} (hx : x ∈ tags) (hy : y ∈ tags)
    (same : x.tag = y.tag) : x = y := List.inj_on_of_nodup_map distinct hx hy same

/-- A tag that stands once in a list and leaves it makes the list one entry shorter. -/
theorem length_filter_tag {tags : List OpenTag} (distinct : (tags.map (·.tag)).Nodup) {x : OpenTag} (listed : x ∈ tags) :
    (tags.filter (·.tag ≠ x.tag)).length + 1 = tags.length := by
  induction tags with
  | nil => cases listed
  | cons y rest ih =>
    obtain ⟨fresh, distinct'⟩ := List.nodup_cons.1 distinct
    by_cases same : y.tag = x.tag
    · have kept : rest.filter (·.tag ≠ x.tag) = rest := by
        refine List.filter_eq_self.2 fun z member => decide_eq_true fun equal => fresh ?_
        have shared : z.tag = y.tag := equal.trans same.symm
        exact List.mem_map.2 ⟨z, member, shared⟩
      rw [List.filter_cons_of_neg (by simp [same]), kept, List.length_cons]
    · have listed' : x ∈ rest := by
        rcases List.mem_cons.1 listed with rfl | listed
        · exact absurd rfl same
        · exact listed
      rw [List.filter_cons_of_pos (by simp [same]), List.length_cons, List.length_cons, ih distinct' listed']

/-! ### Links that an event does not touch -/

theorem AccountSound.congr {s t : State} {m : LinkNo} {live : Bool} {extra room room' : Nat}
    (h : AccountSound s m live extra room)
    (tags : (t.session m).tags = (s.session m).tags)
    (records : ∀ i, (t.record i).state = (s.record i).state ∨
      (s.record i).state.owner ≠ some m ∧ (t.record i).state.owner ≠ some m)
    (reserved : (t.link m).reserved = (s.link m).reserved)
    (queued : (t.link m).queued + room' ≤ (s.link m).queued + room) : AccountSound t m live extra room' := by
  have same {i : RecNo} (owner : (s.record i).state.owner = some m ∨ (t.record i).state.owner = some m) :
      (t.record i).state = (s.record i).state := by
    rcases records i with same | ⟨before, after⟩
    · exact same
    · exact absurd owner (not_or.2 ⟨before, after⟩)
  have count : t.countRecords (heldBy m) = s.countRecords (heldBy m) := by
    refine countRecords_congr _ _ fun i => ?_
    rcases records i with same | ⟨before, after⟩
    · rw [same]
    · simp [heldBy, before, after]
  refine ⟨tags ▸ h.distinct, tags ▸ h.few, tags ▸ h.nonzero, fun x listed i ref => ?_, fun i x waits => ?_,
    fun shut => tags.trans (h.idle shut), fun i owner => ?_, ?_, ?_, reserved ▸ h.below⟩
  · have waits := h.names x (tags ▸ listed) i ref
    rwa [same (.inl (owner_of_waitsUnder waits))]
  · rw [same (.inr (owner_of_waitsUnder waits))] at waits
    exact tags ▸ h.waits i x waits
  · exact h.owns i (same (.inr owner) ▸ owner)
  · rw [reserved, tags, count]
    exact h.account
  · have := h.within
    rw [reserved]
    omega

theorem ArrivalSound.congr {s t : State} {m : LinkNo} (h : ArrivalSound s m)
    (tags : (t.session m).tags = (s.session m).tags)
    (arrivals : ∀ g a, a.link = m → (a ∈ (t.group g).arrivals ↔ a ∈ (s.group g).arrivals))
    (member : ∀ g, (t.groupDef g).has m = (s.groupDef g).has m) : ArrivalSound t m := by
  refine ⟨fun x listed g ref => ?_, fun g a listed link => ?_, fun g a listed link => ?_⟩
  · obtain ⟨a, entry, link, tag⟩ := h.names x (tags ▸ listed) g ref
    exact ⟨a, (arrivals g a link).2 entry, link, tag⟩
  · exact tags ▸ h.arrived g a ((arrivals g a link).1 listed) link
  · rw [member]
    exact h.member g a ((arrivals g a link).1 listed) link

end Sys2Proof.Machine
end


section
/-! PROOFS. A record whose request or holding ends: the account of its owner follows, and no other link's is touched. -/

namespace Sys2Proof.Machine

open Sys2Proof.Safety

/-! ### One record concluded -/

/-- The open tags left when `closed`, if any, closes. -/
def tagsLeft (closed : Option OpenTag) (tags : List OpenTag) : List OpenTag :=
  match closed with
  | none => tags
  | some z => tags.filter (·.tag ≠ z.tag)

/-- The reservations that link `o` no longer needs when the request `closed`, if any, is answered and its record moves from
`x` to `y`. -/
def setFree (o : LinkNo) (closed : Option OpenTag) (x y : RecState) : Nat :=
  closed.isSome.toNat + (heldBy o x && !heldBy o y).toNat

/-- From `s` to `t` record `i` of link `o` moves to the state `y`, in which no request waits; the tag of the request that
waited, if any, closes, and the reservations set free are filled or returned. -/
structure Concluded (o : LinkNo) (i : RecNo) (y : RecState) (closed : Option OpenTag) (s t : State) : Prop where
  record : ∀ j, (t.record j).state = if i = j then y else (s.record j).state
  owner : (s.record i).state.owner = some o
  kept : y.owner = none ∨ y.owner = some o
  silent : waitsUnder i y = none
  shrinks : heldBy o y = true → heldBy o (s.record i).state = true
  waits : waitsUnder i (s.record i).state = closed.map (o, ·)
  tags : (t.session o).tags = tagsLeft closed (s.session o).tags
  reserved : (t.link o).reserved = (s.link o).reserved - setFree o closed (s.record i).state y
  queued : (t.link o).queued ≤ (s.link o).queued + setFree o closed (s.record i).state y
  others : ∀ m, m ≠ o → (t.session m).tags = (s.session m).tags ∧ t.link m = s.link m
  groups : t.groups = s.groups
  profile : t.profile = s.profile

theorem mem_tagsLeft {closed : Option OpenTag} {tags : List OpenTag} {x : OpenTag} (listed : x ∈ tagsLeft closed tags) :
    x ∈ tags := by
  cases closed with
  | none => exact listed
  | some z => exact List.mem_of_mem_filter listed

theorem mem_tagsLeft_iff {closed : Option OpenTag} {tags : List OpenTag} (distinct : (tags.map (·.tag)).Nodup)
    (open_ : ∀ z ∈ closed, z ∈ tags) (x : OpenTag) : x ∈ tagsLeft closed tags ↔ x ∈ tags ∧ closed ≠ some x := by
  cases closed with
  | none => simp [tagsLeft]
  | some z =>
    rw [tagsLeft, List.mem_filter, decide_eq_true_iff]
    refine and_congr_right fun listed => ⟨fun other same => other ?_, fun other same => other ?_⟩
    · rw [Option.some.inj same]
    · rw [tag_inj distinct (open_ z rfl) listed same.symm]

theorem length_tagsLeft {closed : Option OpenTag} {tags : List OpenTag} (distinct : (tags.map (·.tag)).Nodup)
    (open_ : ∀ z ∈ closed, z ∈ tags) : (tagsLeft closed tags).length + closed.isSome.toNat = tags.length := by
  cases closed with
  | none => rfl
  | some z => exact length_filter_tag distinct (open_ z rfl)

theorem nodup_tagsLeft {closed : Option OpenTag} {tags : List OpenTag} (distinct : (tags.map (·.tag)).Nodup) :
    ((tagsLeft closed tags).map (·.tag)).Nodup := by
  cases closed with
  | none => exact distinct
  | some z => exact distinct.sublist (List.filter_sublist.map _)

/-- The account of the owner of a concluded record. -/
theorem Concluded.accountSound_owner {o : LinkNo} {i : RecNo} {y : RecState} {closed : Option OpenTag} {s t : State}
    (c : Concluded o i y closed s t) {live : Bool} {extra room : Nat} (h : AccountSound s o live extra room) :
    AccountSound t o live extra room := by
  have open_ : ∀ z ∈ closed, z ∈ (s.session o).tags := by
    rintro z same
    exact h.waits i z (by rw [c.waits, same]; rfl)
  have count := countRecords_rewrite (heldBy o) i y c.record
  have length := length_tagsLeft h.distinct open_
  have held : (heldBy o (s.record i).state).toNat = (heldBy o y).toNat +
      (heldBy o (s.record i).state && !heldBy o y).toNat := by
    have shrinks := c.shrinks
    revert shrinks
    cases heldBy o y <;> cases heldBy o (s.record i).state <;> simp
  have account := h.account
  have free : setFree o closed (s.record i).state y =
      closed.isSome.toNat + (heldBy o (s.record i).state && !heldBy o y).toNat := rfl
  have reserved := c.reserved
  have queued := c.queued
  have within := h.within
  have below := h.below
  have few := h.few
  refine ⟨c.tags ▸ nodup_tagsLeft h.distinct, ?_, fun x listed => ?_, fun x listed j ref => ?_, fun j x waits => ?_,
    fun shut => ?_, fun j owner => ?_, ?_, ?_, ?_⟩
  · rw [c.tags]; omega
  · exact h.nonzero x (mem_tagsLeft (c.tags ▸ listed))
  · obtain ⟨listed, stays⟩ := (mem_tagsLeft_iff h.distinct open_ x).1 (c.tags ▸ listed)
    have before := h.names x listed j ref
    rw [c.record]
    split
    · rename_i same
      rw [← same, c.waits] at before
      cases closed with
      | none => cases before
      | some z => cases before; exact absurd rfl stays
    · exact before
  · rw [c.record] at waits
    split at waits
    · rw [← ‹i = j›, c.silent] at waits
      cases waits
    · rename_i other
      refine c.tags ▸ (mem_tagsLeft_iff h.distinct open_ x).2 ⟨h.waits j x waits, fun same => other ?_⟩
      have here : waitsUnder i (s.record i).state = some (o, x) := by rw [c.waits, same]; rfl
      exact Option.some.inj ((record_of_waitsUnder here).symm.trans (record_of_waitsUnder waits))
  · exact List.eq_nil_iff_forall_not_mem.2 fun x listed => by
      have gone := mem_tagsLeft (c.tags ▸ listed)
      rw [h.idle shut] at gone
      cases gone
  · rw [c.record] at owner
    split at owner
    · exact h.owns i c.owner
    · exact h.owns j owner
  · rw [reserved, c.tags]; omega
  · rw [reserved]; omega
  · omega

theorem Concluded.accountSound {o : LinkNo} {i : RecNo} {y : RecState} {closed : Option OpenTag} {s t : State}
    (c : Concluded o i y closed s t) {m : LinkNo} {live : Bool} {extra room : Nat}
    (h : AccountSound s m live extra room) : AccountSound t m live extra room := by
  by_cases here : m = o
  · subst here
    exact c.accountSound_owner h
  · obtain ⟨tags, link⟩ := c.others m here
    refine h.congr tags (fun j => ?_) (by rw [link]) (by rw [link])
    rw [c.record]
    split
    · rename_i same
      subst same
      refine .inr ⟨fun owner => here (Option.some.inj (owner.symm.trans c.owner)), fun owner => ?_⟩
      rcases c.kept with none_ | kept
      · rw [none_] at owner; cases owner
      · exact here (Option.some.inj (owner.symm.trans kept))
    · exact .inl rfl

/-- No arrival is touched: a closed tag names a record. -/
theorem Concluded.arrivalSound {o : LinkNo} {i : RecNo} {y : RecState} {closed : Option OpenTag} {s t : State}
    (c : Concluded o i y closed s t) {m : LinkNo} {live : Bool} {extra room : Nat}
    (account : AccountSound s m live extra room) (h : ArrivalSound s m) : ArrivalSound t m := by
  have group (g : GroupNo) : t.group g = s.group g := congrArg (·.get g) c.groups
  have groupDef (g : GroupNo) : t.groupDef g = s.groupDef g := congrArg (·.groups.get g) c.profile
  by_cases here : m = o
  · subst here
    have open_ : ∀ z ∈ closed, z ∈ (s.session m).tags := by
      rintro z same
      exact account.waits i z (by rw [c.waits, same]; rfl)
    refine ⟨fun x listed g ref => ?_, fun g a listed link => ?_, fun g a listed link => ?_⟩
    · rw [group]
      exact h.names x (mem_tagsLeft (c.tags ▸ listed)) g ref
    · rw [group] at listed
      refine c.tags ▸ (mem_tagsLeft_iff account.distinct open_ _).2 ⟨h.arrived g a listed link, fun same => ?_⟩
      have waits : waitsUnder i (s.record i).state = some (m, { tag := a.tag, ref := .arrival g }) := by
        rw [c.waits, same]; rfl
      cases record_of_waitsUnder waits
    · rw [group] at listed
      rw [groupDef]
      exact h.member g a listed link
  · exact h.congr (c.others m here).1 (fun g a _ => by rw [group]) (fun g => by rw [groupDef])

theorem RoundsSound.congr {s t : State} (h : RoundsSound s) (groups : t.groups = s.groups) (profile : t.profile = s.profile) :
    RoundsSound t := by
  intro g
  have group : t.group g = s.group g := congrArg (·.get g) groups
  have groupDef : t.groupDef g = s.groupDef g := congrArg (·.groups.get g) profile
  rw [group, groupDef]
  exact h g

/-- What the operations on records and rounds keep: the account and the arrivals of every link, and the rounds. -/
structure Upholds (s t : State) : Prop where
  rounds : RoundsSound s → RoundsSound t
  links : RoundsSound s → ∀ (m : LinkNo) (live : Bool) (extra room : Nat), AccountSound s m live extra room →
    ArrivalSound s m → AccountSound t m live extra room ∧ ArrivalSound t m

theorem Upholds.refl (s : State) : Upholds s s := ⟨id, fun _ _ _ _ _ account arrival => ⟨account, arrival⟩⟩

theorem Upholds.trans {s t u : State} (h : Upholds s t) (k : Upholds t u) : Upholds s u where
  rounds rounds := k.rounds (h.rounds rounds)
  links rounds m live extra room account arrival := by
    obtain ⟨account, arrival⟩ := h.links rounds m live extra room account arrival
    exact k.links (h.rounds rounds) m live extra room account arrival

theorem Concluded.upholds {o : LinkNo} {i : RecNo} {y : RecState} {closed : Option OpenTag} {s t : State}
    (c : Concluded o i y closed s t) : Upholds s t where
  rounds rounds := rounds.congr c.groups c.profile
  links _ _ _ _ _ account arrival := ⟨c.accountSound account, c.arrivalSound account arrival⟩

/-! ### The operations that conclude -/

/-- What is written, once, to a record, its owner's link unit and its owner's session. -/
theorem concluded_of_writes {o : LinkNo} {i : RecNo} {r : Record} {closed : Option OpenTag} {s t : State} {u : LinkUnit}
    {x : Session} (records : t.records = s.records.set i r) (links : t.links = s.links.set o u)
    (sessions : t.sessions = s.sessions.set o x) (groups : t.groups = s.groups) (profile : t.profile = s.profile)
    (owner : (s.record i).state.owner = some o) (kept : r.state.owner = none ∨ r.state.owner = some o)
    (silent : waitsUnder i r.state = none) (shrinks : heldBy o r.state = true → heldBy o (s.record i).state = true)
    (waits : waitsUnder i (s.record i).state = closed.map (o, ·)) (tags : x.tags = tagsLeft closed (s.session o).tags)
    (reserved : u.reserved = (s.link o).reserved - setFree o closed (s.record i).state r.state)
    (queued : u.queued ≤ (s.link o).queued + setFree o closed (s.record i).state r.state) :
    Concluded o i r.state closed s t := by
  have link (m : LinkNo) : t.link m = if o = m then u else s.link m := by
    rw [State.link, links]
    exact Vector.get_set_fin ..
  have session (m : LinkNo) : t.session m = if o = m then x else s.session m := by
    rw [State.session, sessions]
    exact Vector.get_set_fin ..
  have record (j : RecNo) : (t.record j).state = if i = j then r.state else (s.record j).state := by
    rw [State.record, records, Vector.get_set_fin, apply_ite Record.state]
    rfl
  refine ⟨record, owner, kept, silent, shrinks, waits, ?_, ?_, ?_, fun m other => ?_, groups, profile⟩
  · rw [session, if_pos rfl, tags]
  · rw [link, if_pos rfl, reserved]
  · rw [link, if_pos rfl]; exact queued
  · rw [session, link, if_neg (Ne.symm other), if_neg (Ne.symm other)]
    exact ⟨rfl, rfl⟩

theorem queued_append (u v : LinkUnit) (list : List OutEntry) (outbound : v.outbound = u.outbound ++ list) :
    v.queued = u.queued + list.length := by
  rw [LinkUnit.queued, outbound, List.length_append]
  rfl

theorem heldBy_of_owner {o : LinkNo} {x : RecState} (owner : x.owner = some o) : heldBy o x = x.holdReserved := by
  simp [heldBy, owner]

theorem heldBy_free (o : LinkNo) : heldBy o .free = false := rfl

theorem concluded_endLockWait {i : RecNo} {notice : Half → Message} {o : LinkNo} {b : Block} {m : Mode} {tag : Byte}
    {w : Option Instant} {h : Option Nat} {s : State} (state : (s.record i).state = .waiting o b m tag w h) :
    Concluded o i .free (some { tag := tag, ref := .lockWait i }) s (endLockWait i notice s) := by
  have owner : (s.record i).state.owner = some o := by rw [state]; rfl
  have free : setFree o (some { tag := tag, ref := .lockWait i }) (s.record i).state .free = 1 + h.isSome.toNat := by
    rw [setFree, heldBy_of_owner owner, state, heldBy_free, Bool.not_false, Bool.and_true]; rfl
  rw [endLockWait_eq i notice o b m tag w h s state]
  refine concluded_of_writes (r := freed (s.record i)) rfl rfl rfl rfl rfl owner (.inl rfl) rfl (fun none_ => by cases none_)
    (by rw [state]; rfl) rfl ?_ ?_
  · rw [show (freed (s.record i)).state = .free from rfl, free, Nat.sub_add_eq]
  · rw [show (freed (s.record i)).state = .free from rfl, free, queued_append (s.link o) _ _ rfl]
    simp

theorem concluded_endConversion {i : RecNo} {notice : Half → Message} {o : LinkNo} {b : Block} {token : Word} {tag : Byte}
    {w : Option Instant} {h : Option Hold} {s : State} (state : (s.record i).state = .converting o b token tag w h) :
    Concluded o i (.held o b .shared token h) (some { tag := tag, ref := .convert i }) s (endConversion i notice s) := by
  have free : setFree o (some { tag := tag, ref := .convert i }) (s.record i).state (.held o b .shared token h) = 1 := by
    simp [setFree, state, heldBy, RecState.owner, RecState.holdReserved]
  rw [endConversion_eq i notice o b token tag w h s state]
  refine concluded_of_writes (r := { reuse := (s.record i).reuse, state := .held o b .shared token h }) rfl rfl rfl rfl rfl
    (by rw [state]; rfl) (.inr rfl) rfl (fun held => by rw [state]; exact held) (by rw [state]; rfl) rfl ?_ ?_
  · rw [free]
  · rw [free, queued_append (s.link o) _ _ rfl]; rfl

theorem concluded_endWatch {i : RecNo} {notice : Half → Message} {o : LinkNo} {b : Block} {tag : Byte}
    {w : Option Instant} {s : State} (state : (s.record i).state = .watching o b tag w) :
    Concluded o i .free (some { tag := tag, ref := .watch i }) s (endWatch i notice s) := by
  have free : setFree o (some { tag := tag, ref := .watch i }) (s.record i).state .free = 1 := by
    simp [setFree, state, heldBy, RecState.owner, RecState.holdReserved]
  rw [endWatch_eq i notice o b tag w s state]
  refine concluded_of_writes (r := freed (s.record i)) rfl rfl rfl rfl rfl (by rw [state]; rfl) (.inl rfl) rfl
    (fun none_ => by cases none_) (by rw [state]; rfl) rfl ?_ ?_
  · rw [show (freed (s.record i)).state = .free from rfl, free]
  · rw [show (freed (s.record i)).state = .free from rfl, free, queued_append (s.link o) _ _ rfl]; rfl

theorem concluded_fireWatch {i : RecNo} {o : LinkNo} {b : Block} {tag : Byte}
    {w : Option Instant} {s : State} (state : (s.record i).state = .watching o b tag w) :
    Concluded o i .free (some { tag := tag, ref := .watch i }) s (fireWatch i o tag s) := by
  have same : endWatch i .fired s = fireWatch i o tag s := endWatch_of_watching i .fired o b tag w s state
  exact same ▸ concluded_endWatch state

theorem concluded_grantConverter {i : RecNo} {o : LinkNo} {b : Block} {token : Word} {tag : Byte}
    {w : Option Instant} {h : Option Hold} {s : State} (state : (s.record i).state = .converting o b token tag w h) :
    Concluded o i (.held o b .exclusive (s.tokens + 1) h) (some { tag := tag, ref := .convert i }) s
      (grantConverter i o b tag h s) := by
  have free : setFree o (some { tag := tag, ref := .convert i }) (s.record i).state
      (.held o b .exclusive (s.tokens + 1) h) = 1 := by
    simp [setFree, state, heldBy, RecState.owner, RecState.holdReserved]
  rw [grantConverter_eq]
  refine concluded_of_writes (r := { reuse := (s.record i).reuse, state := .held o b .exclusive (s.tokens + 1) h }) rfl rfl
    rfl rfl rfl (by rw [state]; rfl) (.inr rfl) rfl (fun held => by rw [state]; exact held) (by rw [state]; rfl) rfl ?_ ?_
  · rw [free]
  · rw [free, queued_append (s.link o) _ _ rfl]; rfl

theorem isSome_armHold (s : State) (limit : Option Nat) : (s.armHold limit).isSome = limit.isSome := by
  cases limit <;> rfl

theorem concluded_grantWaiter {i : RecNo} {o : LinkNo} {b : Block} {m : Mode} {tag : Byte} {w : Option Instant}
    {h : Option Nat} {s : State} (state : (s.record i).state = .waiting o b m tag w h) :
    Concluded o i (.held o b m (s.tokens + 1) (s.armHold h)) (some { tag := tag, ref := .lockWait i }) s
      (grantWaiter i o b m tag h s) := by
  have same : heldBy o (.held o b m (s.tokens + 1) (s.armHold h)) = heldBy o (s.record i).state := by
    rw [state]
    simp [heldBy, RecState.owner, RecState.holdReserved, isSome_armHold]
  have free : setFree o (some { tag := tag, ref := .lockWait i }) (s.record i).state
      (.held o b m (s.tokens + 1) (s.armHold h)) = 1 := by
    rw [setFree, same, Bool.and_not_self]; rfl
  rw [grantWaiter_eq]
  refine concluded_of_writes (r := { reuse := (s.record i).reuse, state := .held o b m (s.tokens + 1) (s.armHold h) }) rfl
    rfl rfl rfl rfl (by rw [state]; rfl) (.inr rfl) rfl (fun held => same ▸ held) (by rw [state]; rfl) rfl ?_ ?_
  · rw [free]
  · rw [free, queued_append (s.link o) _ _ rfl]; rfl

/-- A holding is freed with what waits on it (R57, R58). -/
theorem concluded_freeHolding {i : RecNo} {token : Word} {s : State} (holding : (s.record i).state.token = some token) :
    ∃ o closed, Concluded o i .free closed s (freeHolding i (concludeConversion i s)) := by
  rcases RecState.holding_cases holding with ⟨o, b, m, h, state⟩ | ⟨o, b, tag, w, h, state⟩
  · have owner : (s.record i).state.owner = some o := by rw [state]; rfl
    have free : setFree o none (s.record i).state .free = (s.record i).state.holdReserved.toNat := by
      rw [setFree, heldBy_of_owner owner, heldBy_free, Bool.not_false, Bool.and_true]
      exact Nat.zero_add _
    refine ⟨o, none, ?_⟩
    rw [concludeConversion_held i o b m token h s state, freeHolding_eq i o s owner]
    refine concluded_of_writes (r := freed (s.record i)) rfl rfl rfl rfl rfl owner (.inl rfl) rfl
      (fun none_ => by cases none_) (by rw [state]; rfl) rfl ?_ ?_
    · rw [show (freed (s.record i)).state = .free from rfl, free]
    · exact Nat.le_add_right _ _
  · have owner : (s.record i).state.owner = some o := by rw [state]; rfl
    have free : setFree o (some { tag := tag, ref := .convert i }) (s.record i).state .free =
        1 + (s.record i).state.holdReserved.toNat := by
      rw [setFree, heldBy_of_owner owner, heldBy_free, Bool.not_false, Bool.and_true]
      rfl
    refine ⟨o, some { tag := tag, ref := .convert i }, ?_⟩
    rw [concludeConversion_converting i o b token tag w h s state, freeHolding_closeTag i o tag _ s owner]
    refine concluded_of_writes (r := freed (s.record i)) rfl rfl rfl rfl rfl owner (.inl rfl) rfl
      (fun none_ => by cases none_) (by rw [state]; rfl) rfl ?_ ?_
    · rw [show (freed (s.record i)).state = .free from rfl, free, Nat.sub_add_eq]
    · rw [show (freed (s.record i)).state = .free from rfl, free, queued_append (s.link o) _ _ rfl]
      simp

/-- A holding with a hold limit is revoked with what waits on it (R70, R71). -/
theorem concluded_revoke {i : RecNo} {d : Instant} {s : State} (armed : (s.record i).state.holdDeadline = some d) :
    ∃ o closed, Concluded o i .free closed s (revoke i (concludeConversion i s)) := by
  rcases holding_of_holdDeadline armed with ⟨o, b, m, token, h, state, -⟩ | ⟨o, b, token, tag, w, h, state, -⟩
  · have owner : (s.record i).state.owner = some o := by rw [state]; rfl
    have free : setFree o none (s.record i).state .free = 1 := by
      simp [setFree, state, heldBy, RecState.owner, RecState.holdReserved]
    refine ⟨o, none, ?_⟩
    rw [concludeConversion_held i o b m token _ s state, revoke_eq i o token s owner (by rw [state]; rfl)]
    refine concluded_of_writes (r := freed (s.record i)) rfl rfl rfl rfl rfl owner (.inl rfl) rfl
      (fun none_ => by cases none_) (by rw [state]; rfl) rfl ?_ ?_
    · rw [show (freed (s.record i)).state = .free from rfl, free]
    · rw [show (freed (s.record i)).state = .free from rfl, free, queued_append (s.link o) _ _ rfl]; rfl
  · have owner : (s.record i).state.owner = some o := by rw [state]; rfl
    have free : setFree o (some { tag := tag, ref := .convert i }) (s.record i).state .free = 1 + 1 := by
      simp [setFree, state, heldBy, RecState.owner, RecState.holdReserved]
    refine ⟨o, some { tag := tag, ref := .convert i }, ?_⟩
    rw [concludeConversion_converting i o b token tag w _ s state, revoke_closeTag i o tag _ token s owner (by rw [state]; rfl)]
    refine concluded_of_writes (r := freed (s.record i)) rfl rfl rfl rfl rfl owner (.inl rfl) rfl
      (fun none_ => by cases none_) (by rw [state]; rfl) rfl ?_ ?_
    · rw [show (freed (s.record i)).state = .free from rfl, free, Nat.sub_add_eq]
    · rw [show (freed (s.record i)).state = .free from rfl, free, queued_append (s.link o) _ _ rfl]; rfl

/-- A HELD record changes its mode and token and keeps its hold limit (R60, R61). -/
theorem concluded_share {i : RecNo} {o : LinkNo} {b : Block} {m n : Mode} {token token' : Word} {h : Option Hold} {s t : State}
    (state : (s.record i).state = .held o b m token h)
    (records : t.records = s.records.set i { reuse := (s.record i).reuse, state := .held o b n token' h })
    (links : t.links = s.links) (sessions : t.sessions = s.sessions) (groups : t.groups = s.groups)
    (profile : t.profile = s.profile) : Concluded o i (.held o b n token' h) none s t := by
  have free : setFree o none (s.record i).state (.held o b n token' h) = 0 := by
    rw [setFree, state]
    exact Nat.zero_add _ ▸ (by simp [heldBy, RecState.owner, RecState.holdReserved])
  refine concluded_of_writes (r := { reuse := (s.record i).reuse, state := .held o b n token' h }) (u := s.link o)
    (x := s.session o) records (links.trans (Vector.set_get_fin ..).symm) (sessions.trans (Vector.set_get_fin ..).symm) groups
    profile (by rw [state]; rfl) (.inr rfl) rfl (fun held => by rw [state]; exact held) (by rw [state]; rfl) rfl ?_ ?_
  · rw [free]; rfl
  · exact Nat.le_add_right _ _

/-! ### The grant scan -/

theorem accountSound_grantScan {s : State} {m : LinkNo} {live : Bool} {extra room : Nat}
    (h : AccountSound s m live extra room) : AccountSound (grantScan s) m live extra room := by
  refine grantScan_induct (AccountSound · m live extra room) ?_ ?_ ?_ s h
  · intro t i o b token tag w hold h state _ _
    exact (concluded_grantConverter state).accountSound h
  · intro t i o b n tag w limit h state _ _
    exact (concluded_grantWaiter state).accountSound h
  · intro t i o b tag w h state _
    exact (concluded_fireWatch state).accountSound h

theorem upholds_grantScan (s : State) : Upholds s (grantScan s) := by
  refine grantScan_induct (Upholds s ·) ?_ ?_ ?_ s (.refl s)
  · intro t i o b token tag w hold h state _ _
    exact h.trans (concluded_grantConverter state).upholds
  · intro t i o b n tag w limit h state _ _
    exact h.trans (concluded_grantWaiter state).upholds
  · intro t i o b tag w h state _
    exact h.trans (concluded_fireWatch state).upholds

theorem upholds_expireWait (i : RecNo) (s : State) : Upholds s (expireWait i s) := by
  unfold expireWait
  split
  · exact (concluded_endLockWait ‹_›).upholds.trans (upholds_grantScan _)
  · exact (concluded_endConversion ‹_›).upholds.trans (upholds_grantScan _)
  · exact (concluded_endWatch ‹_›).upholds.trans (upholds_grantScan _)
  · exact .refl s
  · exact .refl s

theorem upholds_expireHold {i : RecNo} {d : Instant} {s : State} (armed : (s.record i).state.holdDeadline = some d) :
    Upholds s (expireHold i s) := by
  obtain ⟨o, closed, concluded⟩ := concluded_revoke armed
  exact concluded.upholds.trans (upholds_grantScan _)

end Sys2Proof.Machine
end


section
/-! PROOFS. Arrivals that leave a round, with their notices or without: the accounts and the rounds that remain. -/

namespace Sys2Proof.Machine

open Sys2Proof.Safety

/-! ### Entries leave one list -/

/-- Beside link units and sessions, only the list of group `g` is written, and entries only leave it. -/
structure RoundFrame (g : GroupNo) (s t : State) : Prop where
  records : t.records = s.records
  profile : t.profile = s.profile
  groups : ∀ h, h ≠ g → t.group h = s.group h
  leaves : (t.group g).arrivals.Sublist (s.group g).arrivals

/-- Link `m` leaves the list of group `g` with a notice, or stands in it as it did. -/
def LeftBy (g : GroupNo) (m : LinkNo) (s t : State) : Prop :=
  (∃ a ∈ (s.group g).arrivals, a.link = m ∧ (∃ msg, Told msg a s t) ∧ ∀ b ∈ (t.group g).arrivals, b.link ≠ m) ∨
  SameAccount m s t ∧ ∀ b, b.link = m → (b ∈ (t.group g).arrivals ↔ b ∈ (s.group g).arrivals)

theorem RoundFrame.rounds {g : GroupNo} {s t : State} (frame : RoundFrame g s t) (h : RoundsSound s) : RoundsSound t := by
  intro k
  have groupDef : t.groupDef k = s.groupDef k := congrArg (·.groups.get k) frame.profile
  obtain ⟨distinct, quorum⟩ := h k
  rw [groupDef]
  by_cases here : k = g
  · subst here
    refine ⟨distinct.sublist (frame.leaves.map _), fun mode gathers => ?_⟩
    refine Nat.lt_of_le_of_lt frame.leaves.length_le (quorum mode fun empty => gathers ?_)
    exact List.sublist_nil.1 (empty ▸ frame.leaves)
  · rw [frame.groups k here]
    exact ⟨distinct, quorum⟩

theorem RoundFrame.link {g : GroupNo} {s t : State} (frame : RoundFrame g s t) (rounds : RoundsSound s) {m : LinkNo}
    (left : LeftBy g m s t) {live : Bool} {extra room : Nat} (account : AccountSound s m live extra room)
    (arrival : ArrivalSound s m) : AccountSound t m live extra room ∧ ArrivalSound t m := by
  have record (i : RecNo) : t.record i = s.record i := congrArg (·.get i) frame.records
  have groupDef (h : GroupNo) : t.groupDef h = s.groupDef h := congrArg (·.groups.get h) frame.profile
  rcases left with ⟨a, listed, rfl, ⟨msg, told⟩, gone⟩ | ⟨⟨link, session⟩, stands⟩
  · obtain ⟨distinct, -⟩ := rounds g
    obtain ⟨link, session⟩ := told
    have tags : (t.session a.link).tags = (s.session a.link).tags.filter (·.tag ≠ a.tag) := by rw [session]
    have open_ := arrival.arrived g a listed rfl
    have stays (x : OpenTag) : x ∈ (t.session a.link).tags ↔ x ∈ (s.session a.link).tags ∧ x.tag ≠ a.tag := by
      rw [tags, List.mem_filter, decide_eq_true_iff]
    have length : ((s.session a.link).tags.filter (·.tag ≠ a.tag)).length + 1 = (s.session a.link).tags.length :=
      length_filter_tag account.distinct open_
    have count : t.countRecords (heldBy a.link) = s.countRecords (heldBy a.link) :=
      countRecords_congr _ _ fun i => by rw [record]
    have reserved : (t.link a.link).reserved = (s.link a.link).reserved - 1 := by rw [link]
    have queued : (t.link a.link).queued = (s.link a.link).queued + 1 := by
      rw [link]; exact List.length_append
    have balance := account.account
    have within := account.within
    have below := account.below
    have few := account.few
    refine ⟨⟨tags ▸ account.distinct.sublist (List.filter_sublist.map _), ?_, fun x open_ => ?_, fun x open_ i ref => ?_,
      fun i x waits => ?_, fun shut => ?_, fun i owner => ?_, ?_, ?_, ?_⟩, fun x open_ h ref => ?_, fun h b entry own => ?_,
      fun h b entry own => ?_⟩
    · rw [tags]; omega
    · exact account.nonzero x ((stays x).1 open_).1
    · rw [record]
      exact account.names x ((stays x).1 open_).1 i ref
    · rw [record] at waits
      have member := account.waits i x waits
      refine (stays x).2 ⟨member, fun same => ?_⟩
      have equal := tag_inj account.distinct member open_ same
      rw [equal] at waits
      cases record_of_waitsUnder waits
    · rw [tags, account.idle shut]; rfl
    · rw [record] at owner
      exact account.owns i owner
    · rw [reserved, tags, count]; omega
    · rw [reserved, queued]; omega
    · omega
    · obtain ⟨member, other⟩ := (stays x).1 open_
      obtain ⟨b, entry, own, tag⟩ := arrival.names x member h ref
      by_cases here : h = g
      · subst here
        have same := List.inj_on_of_nodup_map distinct entry listed own
        exact absurd (tag ▸ same ▸ rfl) other
      · exact ⟨b, by rw [frame.groups h here]; exact entry, own, tag⟩
    · by_cases here : h = g
      · subst here; exact absurd own (gone b entry)
      · rw [frame.groups h here] at entry
        refine (stays _).2 ⟨arrival.arrived h b entry own, fun same => here ?_⟩
        have equal := tag_inj account.distinct (arrival.arrived h b entry own) open_ same
        exact TagRef.arrival.inj (congrArg OpenTag.ref equal)
    · by_cases here : h = g
      · subst here; exact absurd own (gone b entry)
      · rw [frame.groups h here] at entry
        rw [groupDef]
        exact arrival.member h b entry own
  · refine ⟨account.congr (by rw [session]) (fun i => .inl (by rw [record])) (by rw [link]) (by rw [link]),
      arrival.congr (by rw [session]) (fun h b own => ?_) (fun h => by rw [groupDef])⟩
    by_cases here : h = g
    · subst here; exact stands b own
    · rw [frame.groups h here]

theorem RoundFrame.upholds {g : GroupNo} {s t : State} (frame : RoundFrame g s t)
    (left : RoundsSound s → ∀ m, LeftBy g m s t) : Upholds s t where
  rounds := frame.rounds
  links rounds m _ _ _ account arrival := frame.link rounds (left rounds m) account arrival

/-! ### The rounds that end -/

theorem records_of_pool {s t : State} (h : t.pool = s.pool) : t.records = s.records := ((State.pool_eq_iff s t).1 h).1

theorem profile_notifyArrivals (notice : Nat → Message) (rank : Nat) (list : List Arrival) (s : State) :
    (notifyArrivals notice rank list s).profile = s.profile := by
  obtain ⟨links, sessions, frame⟩ := notifyArrivals_frame notice rank list s
  rw [frame]

theorem roundFrame_of_ended {g : GroupNo} {s t : State} {n : Half} (pool : t.pool = s.pool) (profile : t.profile = s.profile)
    (group : ∀ h, t.group h = if g = h then { generation := n, arrivals := [] } else s.group h) : RoundFrame g s t where
  records := records_of_pool pool
  profile := profile
  groups h other := by rw [group, if_neg other.symm]
  leaves := by rw [group, if_pos rfl]; exact List.nil_sublist _

/-- Every entry is told, or there is none. -/
theorem leftBy_of_ended {g : GroupNo} {m : LinkNo} {s t : State} {n : Half}
    (group : t.group g = { generation := n, arrivals := [] })
    (told : ∀ a ∈ (s.group g).arrivals, a.link = m → ∃ msg, Told msg a s t)
    (untold : (∀ a ∈ (s.group g).arrivals, a.link ≠ m) → SameAccount m s t) : LeftBy g m s t := by
  have empty (b : Arrival) : b ∉ (t.group g).arrivals := by rw [group]; exact List.not_mem_nil
  by_cases arrived : ∃ a ∈ (s.group g).arrivals, a.link = m
  · obtain ⟨a, listed, link⟩ := arrived
    exact .inl ⟨a, listed, link, told a listed link, fun b entry => absurd entry (empty b)⟩
  · have absent : ∀ a ∈ (s.group g).arrivals, a.link ≠ m := fun a listed link => arrived ⟨a, listed, link⟩
    exact .inr ⟨untold absent, fun b own => ⟨fun entry => absurd entry (empty b), fun entry => absurd own (absent b entry)⟩⟩

theorem upholds_passRound (g : GroupNo) (count : Nat) (s : State) : Upholds s (passRound g count s) := by
  have profile : (passRound g count s).profile = s.profile := profile_notifyArrivals _ _ _ s
  refine (roundFrame_of_ended (pool_passRound g count s) profile (group_passRound g · count s)).upholds fun rounds m => ?_
  refine leftBy_of_ended ((group_passRound g g count s).trans (if_pos rfl)) (fun a listed _ => ?_)
    (sameAccount_passRound g count m s)
  obtain ⟨r, lt, rfl⟩ := List.mem_iff_getElem.1 listed
  exact ⟨_, told_passRound g count s (rounds g).1 r lt⟩

theorem upholds_expireArrival {g : GroupNo} {a : Arrival} {s : State} (listed : a ∈ (s.group g).arrivals) :
    Upholds s (expireArrival g a s) := by
  obtain ⟨control, -⟩ := expireArrival_keeps g a s
  refine (roundFrame_of_ended (pool_expireArrival g a s) (profile_of_sameControl control)
    (group_expireArrival g a s)).upholds fun rounds m => ?_
  refine leftBy_of_ended ((group_expireArrival g a s g).trans (if_pos rfl)) (fun b entry _ => ?_)
    (sameAccount_expireArrival g a m s listed)
  by_cases own : b.link = a.link
  · obtain rfl : b = a := List.inj_on_of_nodup_map (rounds g).1 entry listed own
    exact ⟨_, told_expireArrival_self g b s⟩
  · exact ⟨_, told_expireArrival_other g a b s (rounds g).1 entry own⟩

/-- A withdrawal takes the link's own entry out of the list (R101). -/
theorem upholds_withdraw {l : LinkNo} {g : GroupNo} {a : Arrival} {s : State} (listed : a ∈ (s.group g).arrivals)
    (own : a.link = l) : Upholds s (withdraw l a.tag g s) := by
  subst own
  have arrivals : ((withdraw a.link a.tag g s).group g).arrivals = (s.group g).arrivals.filter (·.link ≠ a.link) :=
    congrArg Group.arrivals ((State.group_putGroup ..).trans (if_pos rfl))
  have frame : RoundFrame g s (withdraw a.link a.tag g s) :=
    { records := rfl
      profile := rfl
      groups := fun h other => (State.group_putGroup ..).trans (if_neg other.symm)
      leaves := by rw [arrivals]; exact List.filter_sublist }
  refine frame.upholds fun _ m => ?_
  have mem (b : Arrival) : b ∈ ((withdraw a.link a.tag g s).group g).arrivals ↔ b ∈ (s.group g).arrivals ∧ b.link ≠ a.link := by
    rw [arrivals, List.mem_filter, decide_eq_true_iff]
  by_cases here : a.link = m
  · subst here
    exact .inl ⟨a, listed, rfl, ⟨_, told_closeTag _ a s⟩, fun b entry => ((mem b).1 entry).2⟩
  · refine .inr ⟨sameAccount_closeTag here a.tag _ s, fun b link => ?_⟩
    rw [mem, and_iff_left (link ▸ Ne.symm here)]

/-! ### The re-test of a CLOSE and the departure of a failure end -/

theorem Upholds.foldl {α : Type} (f : State → α → State) (step : ∀ t a, Upholds t (f t a)) (list : List α) (s : State) :
    Upholds s (list.foldl f s) := by
  induction list generalizing s with
  | nil => exact .refl s
  | cons a rest ih => exact (step s a).trans (ih _)

theorem upholds_retest (l : LinkNo) (s : State) : Upholds s (retest l s) := by
  refine Upholds.foldl _ (fun t g => ?_) _ s
  unfold retestGroup
  split
  · exact upholds_passRound g _ t
  · exact .refl t

theorem roundFrame_departGroup (l : LinkNo) (g : GroupNo) (s : State) : RoundFrame g s (departGroup l s g) := by
  unfold departGroup
  split
  · exact roundFrame_of_ended (pool_breakRound g _ _ s) (profile_notifyArrivals _ _ _ s) (group_breakRound g _ _ s)
  · exact ⟨rfl, rfl, fun _ _ => rfl, List.Sublist.refl _⟩

/-- The departure of link `l` at one group, for another link: its entry is told, or stays. -/
theorem leftBy_departGroup {l m : LinkNo} (other : m ≠ l) (g : GroupNo) {s : State} (rounds : RoundsSound s) :
    LeftBy g m s (departGroup l s g) := by
  unfold departGroup
  split
  · refine leftBy_of_ended ((group_breakRound g _ _ s g).trans (if_pos rfl)) (fun a listed link => ?_) fun absent => ?_
    · refine ⟨_, told_notifyArrivals_of_mem _ 1 _ s ((rounds g).1.sublist (List.filter_sublist.map _)) a ?_⟩
      exact List.mem_filter.2 ⟨listed, decide_eq_true (link ▸ other)⟩
    · exact sameAccount_notifyArrivals _ m 1 _ s fun b entry => absent b (List.mem_of_mem_filter entry)
  · exact .inr ⟨⟨rfl, rfl⟩, fun b _ => Iff.rfl⟩

/-- The departing link itself is told nothing. -/
theorem sameAccount_departGroup (l : LinkNo) (g : GroupNo) (s : State) : SameAccount l s (departGroup l s g) := by
  unfold departGroup
  split
  · exact sameAccount_notifyArrivals _ l 1 _ s fun b entry => of_decide_eq_true (List.mem_filter.1 entry).2
  · exact ⟨rfl, rfl⟩

theorem sameAccount_depart (l : LinkNo) (s : State) : SameAccount l s (depart l s) :=
  foldl_keeps (P := SameAccount l s) _ (fun t g same => same.trans (sameAccount_departGroup l g t)) _ ⟨rfl, rfl⟩

theorem depart_keeps {l : LinkNo} {s : State} (rounds : RoundsSound s) : RoundsSound (depart l s) ∧
    ∀ m, m ≠ l → ∀ live extra room, AccountSound s m live extra room → ArrivalSound s m →
      AccountSound (depart l s) m live extra room ∧ ArrivalSound (depart l s) m := by
  refine foldl_keeps (P := fun t => RoundsSound t ∧ ∀ m, m ≠ l → ∀ live extra room, AccountSound s m live extra room →
    ArrivalSound s m → AccountSound t m live extra room ∧ ArrivalSound t m) _ (fun t g ⟨sound, keeps⟩ => ?_) _
    ⟨rounds, fun _ _ _ _ _ account arrival => ⟨account, arrival⟩⟩
  have frame := roundFrame_departGroup l g t
  refine ⟨frame.rounds sound, fun m other live extra room account arrival => ?_⟩
  obtain ⟨account, arrival⟩ := keeps m other live extra room account arrival
  exact frame.link sound (leftBy_departGroup other g sound) account arrival

end Sys2Proof.Machine
end


section
/-! PROOFS. Requests that open a tag, take a record or open a session, and the room that the dispatcher has made sure of. -/

namespace Sys2Proof.Machine

open Sys2Proof.Safety

/-! ### A tag opens, a reservation is set aside -/

/-- The account of a link that opens the tag `opened`, if any, and sets aside `held` hold reservations. -/
theorem AccountSound.takesOn {s t : State} {m : LinkNo} {extra room room' held : Nat} {opened : Option OpenTag}
    (h : AccountSound s m true extra room) (tags : (t.session m).tags = (s.session m).tags ++ opened.toList)
    (fresh : ∀ z ∈ opened, z.tag ≠ 0 ∧ (∀ x ∈ (s.session m).tags, x.tag ≠ z.tag) ∧ (s.session m).tags.length < 16)
    (names : ∀ z ∈ opened, ∀ i, z.ref.record = some i → waitsUnder i (t.record i).state = some (m, z))
    (stays : ∀ i x, waitsUnder i (s.record i).state = some (m, x) → waitsUnder i (t.record i).state = some (m, x))
    (waits : ∀ i x, waitsUnder i (t.record i).state = some (m, x) →
      waitsUnder i (s.record i).state = some (m, x) ∨ opened = some x)
    (count : t.countRecords (heldBy m) = s.countRecords (heldBy m) + held)
    (reserved : (t.link m).reserved = (s.link m).reserved + (opened.isSome.toNat + held))
    (queued : (t.link m).queued = (s.link m).queued) (free : opened.isSome.toNat + held + room' ≤ room)
    (some_ : 1 ≤ room') : AccountSound t m true extra room' := by
  have mem (x : OpenTag) : x ∈ (t.session m).tags ↔ x ∈ (s.session m).tags ∨ opened = some x := by
    rw [tags, List.mem_append, Option.mem_toList]
  have length : (t.session m).tags.length = (s.session m).tags.length + opened.isSome.toNat := by
    rw [tags, List.length_append]
    cases opened <;> rfl
  have balance := h.account
  have within := h.within
  refine ⟨?_, ?_, fun x listed => ?_, fun x listed i ref => ?_, fun i x wait => (mem x).2 ?_, fun shut => Bool.noConfusion shut,
    fun _ _ => rfl, ?_, ?_, ?_⟩
  · rw [tags]
    cases opened with
    | none => rw [Option.toList_none, List.append_nil]; exact h.distinct
    | some z =>
      obtain ⟨-, fresh, -⟩ := fresh z rfl
      rw [Option.toList_some, List.map_append, List.map_singleton, List.nodup_append]
      refine ⟨h.distinct, List.nodup_singleton _, fun a old b new => ?_⟩
      obtain ⟨x, listed, rfl⟩ := List.mem_map.1 old
      rw [List.mem_singleton.1 new]
      exact fresh x listed
  · have few := h.few
    rw [length]
    cases opened with
    | none => exact few
    | some z =>
      obtain ⟨-, -, room⟩ := fresh z rfl
      exact room
  · rcases (mem x).1 listed with old | new
    · exact h.nonzero x old
    · exact (fresh x new).1
  · rcases (mem x).1 listed with old | new
    · exact stays i x (h.names x old i ref)
    · exact names x new i ref
  · exact (waits i x wait).imp_left (h.waits i x)
  · rw [reserved, length, count]; omega
  · rw [reserved, queued]; omega
  · omega

/-- The arrivals of a link that opens the tag `opened`, if any. -/
theorem ArrivalSound.takesOn {s t : State} {m : LinkNo} {opened : Option OpenTag} (h : ArrivalSound s m)
    (tags : (t.session m).tags = (s.session m).tags ++ opened.toList)
    (named : ∀ z ∈ opened, ∀ g, z.ref = .arrival g → ∃ a ∈ (t.group g).arrivals, a.link = m ∧ a.tag = z.tag)
    (stays : ∀ g, ∀ a ∈ (s.group g).arrivals, a ∈ (t.group g).arrivals)
    (joins : ∀ g, ∀ a ∈ (t.group g).arrivals, a.link = m → a ∈ (s.group g).arrivals ∨
      opened = some { tag := a.tag, ref := .arrival g } ∧ (s.groupDef g).has m = true)
    (groupDef : ∀ g, t.groupDef g = s.groupDef g) : ArrivalSound t m := by
  have mem (x : OpenTag) : x ∈ (t.session m).tags ↔ x ∈ (s.session m).tags ∨ opened = some x := by
    rw [tags, List.mem_append, Option.mem_toList]
  refine ⟨fun x listed g ref => ?_, fun g a listed link => (mem _).2 ?_, fun g a listed link => ?_⟩
  · rcases (mem x).1 listed with old | new
    · obtain ⟨a, entry, link, tag⟩ := h.names x old g ref
      exact ⟨a, stays g a entry, link, tag⟩
    · exact named x new g ref
  · exact (joins g a listed link).imp (fun old => h.arrived g a old link) fun ⟨new, _⟩ => new
  · rw [groupDef]
    rcases joins g a listed link with old | ⟨-, member⟩
    · exact h.member g a old link
    · exact member

/-- From `s` to `t` record `i` moves to the state `y` for link `l`, which opens the tag `opened`, if any, for the request that
now waits, and sets aside what the record needs. -/
structure Admitted (l : LinkNo) (i : RecNo) (y : RecState) (opened : Option OpenTag) (s t : State) : Prop where
  record : ∀ j, (t.record j).state = if i = j then y else (s.record j).state
  before : (s.record i).state.owner = none ∨ (s.record i).state.owner = some l
  idle : waitsUnder i (s.record i).state = none
  owner : y.owner = some l
  waits : waitsUnder i y = opened.map (l, ·)
  grows : heldBy l (s.record i).state = true → heldBy l y = true
  tags : (t.session l).tags = (s.session l).tags ++ opened.toList
  reserved : (t.link l).reserved =
    (s.link l).reserved + (opened.isSome.toNat + (heldBy l y && !heldBy l (s.record i).state).toNat)
  queued : (t.link l).queued = (s.link l).queued
  others : ∀ m, m ≠ l → (t.session m).tags = (s.session m).tags ∧ t.link m = s.link m
  groups : t.groups = s.groups
  profile : t.profile = s.profile

/-- The free entries of link `l` alone are known to be `n`. -/
def roomFor (l : LinkNo) (n : Nat) (m : LinkNo) : Nat := if m = l then n else 0

theorem roomFor_self (l : LinkNo) (n : Nat) : roomFor l n l = n := if_pos rfl

theorem roomFor_other {l m : LinkNo} (other : m ≠ l) (n : Nat) : roomFor l n m = 0 := if_neg other

theorem isOpen_eq_of_states {s t : State} (states : ∀ m, (t.session m).state = (s.session m).state) (m : LinkNo) :
    (t.session m).isOpen = (s.session m).isOpen := isOpen_of_state (states m)

theorem Admitted.accountSound {l : LinkNo} {i : RecNo} {y : RecState} {opened : Option OpenTag} {s t : State}
    (c : Admitted l i y opened s t) {extra : Nat} (h : AccountSound s l true extra 3)
    (fresh : ∀ z ∈ opened, z.tag ≠ 0 ∧ (∀ x ∈ (s.session l).tags, x.tag ≠ z.tag) ∧ (s.session l).tags.length < 16) :
    AccountSound t l true extra 1 := by
  have count := countRecords_rewrite (heldBy l) i y c.record
  have held : (heldBy l y).toNat = (heldBy l (s.record i).state).toNat +
      (heldBy l y && !heldBy l (s.record i).state).toNat := by
    have grows := c.grows
    revert grows
    cases heldBy l y <;> cases heldBy l (s.record i).state <;> simp
  have needed : opened.isSome.toNat + (heldBy l y && !heldBy l (s.record i).state).toNat + 1 ≤ 3 := by
    have := opened.isSome.toNat_le
    have := (heldBy l y && !heldBy l (s.record i).state).toNat_le
    omega
  refine h.takesOn c.tags fresh (fun z new j ref => ?_) (fun j x waits => ?_) (fun j x waits => ?_) (by omega) c.reserved
    c.queued needed le_rfl
  · have waits : waitsUnder i y = some (l, z) := by rw [c.waits, new]; rfl
    obtain rfl : i = j := Option.some.inj ((record_of_waitsUnder waits).symm.trans ref)
    rw [c.record, if_pos rfl, waits]
  · rw [c.record]
    split
    · rename_i same
      rw [← same, c.idle] at waits
      cases waits
    · exact waits
  · rw [c.record] at waits
    split at waits
    · rename_i same
      rw [← same, c.waits] at waits
      obtain ⟨z, new, equal⟩ := Option.map_eq_some_iff.1 waits
      exact .inr (new.trans (congrArg some (Prod.mk.inj equal).2))
    · exact .inl waits

theorem Admitted.agree {l : LinkNo} {i : RecNo} {y : RecState} {opened : Option OpenTag} {s t : State}
    (c : Admitted l i y opened s t) (states : ∀ m, (t.session m).state = (s.session m).state)
    (is_open : (s.session l).isOpen = true) (h : SessionsAgree (roomFor l 3) s)
    (fresh : ∀ z ∈ opened, z.tag ≠ 0 ∧ (∀ x ∈ (s.session l).tags, x.tag ≠ z.tag) ∧ (s.session l).tags.length < 16) :
    SessionsAgree (roomFor l 1) t := by
  obtain ⟨links, rounds⟩ := h
  have group (g : GroupNo) : t.group g = s.group g := congrArg (·.get g) c.groups
  have groupDef (g : GroupNo) : t.groupDef g = s.groupDef g := congrArg (·.groups.get g) c.profile
  refine ⟨fun m => ?_, rounds.congr c.groups c.profile⟩
  obtain ⟨account, arrival⟩ := links m
  rw [LinkSound, isOpen_eq_of_states states]
  by_cases here : m = l
  · subst here
    rw [roomFor_self, is_open] at account ⊢
    refine ⟨c.accountSound account fresh, arrival.takesOn c.tags (fun z new g ref => ?_) (fun g a listed => by rwa [group])
      (fun g a listed _ => .inl (by rwa [group] at listed)) groupDef⟩
    have waits : waitsUnder i y = some (m, z) := by rw [c.waits, new]; rfl
    have record := record_of_waitsUnder waits
    rw [ref] at record
    cases record
  · rw [roomFor_other here] at account ⊢
    obtain ⟨tags, link⟩ := c.others m here
    refine ⟨account.congr tags (fun j => ?_) (by rw [link]) (by rw [link]),
      arrival.congr tags (fun g a _ => by rw [group]) fun g => by rw [groupDef]⟩
    rw [c.record]
    split
    · rename_i same
      subst same
      refine .inr ⟨fun owner => ?_, fun owner => here (Option.some.inj (owner.symm.trans c.owner))⟩
      rcases c.before with none_ | before
      · rw [none_] at owner; cases owner
      · exact here (Option.some.inj (owner.symm.trans before))
    · exact .inl rfl

end Sys2Proof.Machine
end


section
/-! PROOFS. What the requests that end no session do to the accounts (R119, R148). -/

namespace Sys2Proof.Machine

open Sys2Proof.Safety

/-! ### What leaves the accounts alone -/

theorem AccountSound.mono {s : State} {m : LinkNo} {live : Bool} {extra room room' : Nat}
    (h : AccountSound s m live extra room) (less : room' ≤ room) : AccountSound s m live extra room' :=
  h.congr rfl (fun _ => .inl rfl) rfl (Nat.add_le_add_left less _)

theorem SessionsAgree.mono {room room' : LinkNo → Nat} {s : State} (h : SessionsAgree room s)
    (less : ∀ m, room' m ≤ room m) : SessionsAgree room' s :=
  ⟨fun m => ⟨(h.1 m).1.mono (less m), (h.1 m).2⟩, h.2⟩

/-- Link units lose or gain queued entries alone; a group without arrivals may be redefined. -/
theorem SessionsAgree.calm {room room' : LinkNo → Nat} {s t : State} (h : SessionsAgree room s)
    (sessions : ∀ m, (t.session m).tags = (s.session m).tags ∧ (t.session m).isOpen = (s.session m).isOpen)
    (records : ∀ i, (t.record i).state = (s.record i).state)
    (links : ∀ m, (t.link m).reserved = (s.link m).reserved ∧
      (t.link m).queued + room' m ≤ (s.link m).queued + room m)
    (groups : ∀ g, (t.group g).arrivals = (s.group g).arrivals ∧
      (t.groupDef g = s.groupDef g ∨ (s.group g).arrivals = [])) : SessionsAgree room' t := by
  obtain ⟨linkSound, rounds⟩ := h
  refine ⟨fun m => ?_, fun g => ?_⟩
  · obtain ⟨account, arrival⟩ := linkSound m
    obtain ⟨tags, is_open⟩ := sessions m
    obtain ⟨reserved, queued⟩ := links m
    rw [LinkSound, is_open]
    refine ⟨account.congr tags (fun i => .inl (records i)) reserved queued,
      ⟨fun x listed g ref => ?_, fun g a listed link => ?_, fun g a listed link => ?_⟩⟩
    · rw [(groups g).1]
      exact arrival.names x (tags ▸ listed) g ref
    · rw [(groups g).1] at listed
      exact tags ▸ arrival.arrived g a listed link
    · obtain ⟨arrivals, same | empty⟩ := groups g
      · rw [same]
        exact arrival.member g a (arrivals ▸ listed) link
      · rw [arrivals, empty] at listed
        cases listed
  · obtain ⟨arrivals, same | empty⟩ := groups g
    · rw [arrivals, same]
      exact rounds g
    · rw [arrivals, empty]
      exact ⟨List.nodup_nil, fun _ gathers => absurd rfl gathers⟩

/-- Nothing but link units is written. -/
theorem SessionsAgree.of_links {room : LinkNo → Nat} {s t : State} (h : SessionsAgree room s)
    (sessions : ∀ m, (t.session m).tags = (s.session m).tags ∧ (t.session m).isOpen = (s.session m).isOpen)
    (records : t.records = s.records) (groups : t.groups = s.groups) (profile : t.profile = s.profile)
    (links : ∀ m, (t.link m).reserved = (s.link m).reserved ∧ (t.link m).queued ≤ (s.link m).queued) :
    SessionsAgree room t :=
  h.calm sessions (fun i => congrArg (fun r => (r.get i).state) records)
    (fun m => ⟨(links m).1, Nat.add_le_add_right (links m).2 _⟩)
    fun g => ⟨congrArg (fun r => (r.get g).arrivals) groups, .inl (congrArg (·.groups.get g) profile)⟩

theorem SessionsAgree.upheld {room : LinkNo → Nat} {s t : State} (h : SessionsAgree room s) (upholds : Upholds s t)
    (states : ∀ m, (t.session m).state = (s.session m).state) : SessionsAgree room t := by
  obtain ⟨links, rounds⟩ := h
  refine ⟨fun m => ?_, upholds.rounds rounds⟩
  obtain ⟨account, arrival⟩ := links m
  rw [LinkSound, isOpen_eq_of_states states]
  exact upholds.links rounds m _ _ _ account arrival

/-- The free entry that the reply fills. -/
theorem SessionsAgree.reply {l : LinkNo} {s : State} (h : SessionsAgree (roomFor l 1) s) (e : OutEntry) :
    SessionsAgree (fun _ => 0) (queueFree l e s) := by
  refine h.calm (fun _ => ⟨rfl, rfl⟩) (fun _ => rfl) (fun m => ?_) fun g => ⟨rfl, .inl rfl⟩
  rw [queueFree, State.link_putLink]
  split
  · rename_i same
    subst same
    exact ⟨rfl, by rw [roomFor_self]; exact (List.length_append).le⟩
  · exact ⟨rfl, Nat.le_add_right _ _⟩

/-- The dispatcher takes a frame only when the entries it needs are free (R151). -/
theorem SessionsAgree.takesFrame {l : LinkNo} {f : Frame} {s t : State} (h : SessionsAgree (fun _ => 0) s)
    (taken : TakesFrame l f s t) : SessionsAgree (roomFor l (neededEntries f.kind)) t := by
  have eligible : s.eligible l = true := by
    obtain ⟨rest, turn, -, -, next, rfl, -⟩ := taken
    rcases (dispatcherChoosesByRotation.2 s turn).1 next with ⟨eligible, -, rfl⟩ | ⟨-, -, eligible, -⟩
    · exact eligible
    · exact eligible
  have room : (s.link l).queued + (s.link l).reserved + neededEntries f.kind ≤ 40 := by
    obtain ⟨-, g, rest', intake', room⟩ := (eligible_iff s l).1 eligible
    obtain ⟨rest, turn, -, intake, -⟩ := taken
    obtain ⟨rfl, -⟩ := List.cons.inj (intake.symm.trans intake')
    exact room
  have roomy : SessionsAgree (roomFor l (neededEntries f.kind)) s := by
    refine ⟨fun m => ?_, h.2⟩
    obtain ⟨account, arrival⟩ := h.1 m
    by_cases here : m = l
    · subst here
      rw [LinkSound, roomFor_self]
      exact ⟨{ account with within := room }, arrival⟩
    · rw [LinkSound, roomFor_other here]
      exact ⟨account, arrival⟩
  have pool := pool_of_takesFrame taken
  refine roomy.calm (fun m => by rw [pool.2.1]; exact ⟨rfl, rfl⟩) (fun i => by rw [pool.1]) (fun m => ?_) fun g => ?_
  · obtain ⟨outbound, reserved⟩ := account_of_takesFrame taken m
    exact ⟨reserved, by rw [LinkUnit.queued, outbound]; exact le_rfl⟩
  · obtain ⟨rest, turn, -, -, -, -, rfl⟩ := taken
    exact ⟨rfl, .inl rfl⟩

theorem one_le_neededEntries (kind : Byte) : 1 ≤ neededEntries kind := by
  rw [neededEntries_eq]
  split <;> decide

/-! ### Requests that take or convert a record -/

theorem admitted_of_writes {l : LinkNo} {i : RecNo} {r : Record} {opened : Option OpenTag} {s t : State} {u : LinkUnit}
    {x : Session} (records : t.records = s.records.set i r) (links : t.links = s.links.set l u)
    (sessions : t.sessions = s.sessions.set l x) (groups : t.groups = s.groups) (profile : t.profile = s.profile)
    (before : (s.record i).state.owner = none ∨ (s.record i).state.owner = some l)
    (idle : waitsUnder i (s.record i).state = none) (owner : r.state.owner = some l)
    (waits : waitsUnder i r.state = opened.map (l, ·))
    (grows : heldBy l (s.record i).state = true → heldBy l r.state = true)
    (tags : x.tags = (s.session l).tags ++ opened.toList)
    (reserved : u.reserved =
      (s.link l).reserved + (opened.isSome.toNat + (heldBy l r.state && !heldBy l (s.record i).state).toNat))
    (queued : u.queued = (s.link l).queued) : Admitted l i r.state opened s t := by
  have link (m : LinkNo) : t.link m = if l = m then u else s.link m := by
    rw [State.link, links]
    exact Vector.get_set_fin ..
  have session (m : LinkNo) : t.session m = if l = m then x else s.session m := by
    rw [State.session, sessions]
    exact Vector.get_set_fin ..
  have record (j : RecNo) : (t.record j).state = if i = j then r.state else (s.record j).state := by
    rw [State.record, records, Vector.get_set_fin, apply_ite Record.state]
    rfl
  refine ⟨record, before, idle, owner, waits, grows, ?_, ?_, ?_, fun m other => ?_, groups, profile⟩
  · rw [session, if_pos rfl, tags]
  · rw [link, if_pos rfl, reserved]
  · rw [link, if_pos rfl, queued]
  · rw [session, link, if_neg (Ne.symm other), if_neg (Ne.symm other)]
    exact ⟨rfl, rfl⟩

theorem reserveHold_eq_putLink (l : LinkNo) (limit : Option Nat) (s : State) : reserveHold l limit s = s.putLink l
    { s.link l with reserved := (s.link l).reserved + limit.isSome.toNat } := by
  cases limit with
  | none => exact (State.putLink_link_self s l).symm
  | some n => rfl

theorem heldBy_free_state {l : LinkNo} {x : RecState} (free : x = .free) : heldBy l x = false := by rw [free]; rfl

/-- A FREE record becomes HELD (R36). -/
theorem admitted_holds {l : LinkNo} {i : RecNo} {b : Block} {m : Mode} {limit : Option Nat} {s : State}
    (free : (s.record i).state = .free) :
    Admitted l i (.held l b m s.nextToken (s.armHold limit)) none s
      (reserveHold l limit (issueToken (allocate i l (.held l b m s.nextToken (s.armHold limit)) s))) := by
  have held : heldBy l (.held l b m s.nextToken (s.armHold limit)) = limit.isSome := by
    rw [heldBy_of_owner rfl]; exact isSome_armHold s limit
  rw [reserveHold_eq_putLink]
  refine admitted_of_writes
    (r := { reuse := (s.record i).reuse, state := .held l b m s.nextToken (s.armHold limit) }) rfl rfl rfl rfl rfl
    (.inl (by rw [free]; rfl)) (by rw [free]; rfl) rfl rfl (fun old => by rw [heldBy_free_state free] at old; cases old)
    (List.append_nil _).symm ?_ rfl
  rw [heldBy_free_state free, held, Bool.not_false, Bool.and_true]
  exact congrArg _ (Nat.zero_add _).symm

/-- A FREE record becomes WAITING (R38). -/
theorem admitted_waits {l : LinkNo} {i : RecNo} {b : Block} {m : Mode} {tag : Byte} {w : Option Instant}
    {limit : Option Nat} {list : List RecNo} {s : State} (free : (s.record i).state = .free) :
    Admitted l i (.waiting l b m tag w limit) (some { tag := tag, ref := .lockWait i }) s
      (reserveHold l limit (openTag l tag (.lockWait i)
        { allocate i l (.waiting l b m tag w limit) s with waitList := list })) := by
  rw [reserveHold_eq_putLink, openTag_eq]
  refine admitted_of_writes (r := { reuse := (s.record i).reuse, state := .waiting l b m tag w limit })
    (u := { s.link l with reserved := (s.link l).reserved + 1 + limit.isSome.toNat })
    (x := { s.session l with
      owned := (s.session l).owned + 1, tags := (s.session l).tags ++ [{ tag := tag, ref := .lockWait i }] })
    rfl ?_ ?_ rfl rfl (.inl (by rw [free]; rfl)) (by rw [free]; rfl) rfl rfl
    (fun old => by rw [heldBy_free_state free] at old; cases old) rfl ?_ rfl
  · simp [State.putLink, State.link, Vector.get_set_fin, allocate_eq]
  · simp [State.session, Vector.get_set_fin, allocate_eq]
  · rw [heldBy_free_state free, heldBy_of_owner rfl, Bool.not_false, Bool.and_true]
    exact Nat.add_assoc ..

/-- A FREE record becomes WATCHING (R81). -/
theorem admitted_watches {l : LinkNo} {i : RecNo} {b : Block} {tag : Byte} {w : Option Instant} {list : List RecNo}
    {s : State} (free : (s.record i).state = .free) :
    Admitted l i (.watching l b tag w) (some { tag := tag, ref := .watch i }) s
      (openTag l tag (.watch i) { allocate i l (.watching l b tag w) s with watchList := list }) := by
  rw [openTag_eq]
  refine admitted_of_writes (r := { reuse := (s.record i).reuse, state := .watching l b tag w })
    (u := { s.link l with reserved := (s.link l).reserved + 1 })
    (x := { s.session l with
      owned := (s.session l).owned + 1, tags := (s.session l).tags ++ [{ tag := tag, ref := .watch i }] })
    rfl rfl ?_ rfl rfl (.inl (by rw [free]; rfl)) (by rw [free]; rfl) rfl rfl
    (fun old => by rw [heldBy_free_state free] at old; cases old) rfl ?_ rfl
  · simp [State.session, Vector.get_set_fin, allocate_eq]
  · rw [heldBy_of_owner rfl]; rfl

/-- A HELD record enters CONVERTING (R64). -/
theorem admitted_converts {l : LinkNo} {i : RecNo} {b : Block} {token : Word} {tag : Byte} {w : Option Instant}
    {hold : Option Hold} {s : State} (state : (s.record i).state = .held l b .shared token hold) :
    Admitted l i (.converting l b token tag w hold) (some { tag := tag, ref := .convert i }) s
      (openTag l tag (.convert i) (s.putState i (.converting l b token tag w hold))) := by
  have same : heldBy l (.converting l b token tag w hold) = heldBy l (s.record i).state := by rw [state]; rfl
  rw [openTag_eq]
  refine admitted_of_writes (r := { reuse := (s.record i).reuse, state := .converting l b token tag w hold })
    rfl rfl rfl rfl rfl (.inr (by rw [state]; rfl)) (by rw [state]; rfl) rfl rfl (fun old => same ▸ old) rfl ?_ rfl
  rw [same, Bool.and_not_self]
  rfl

end Sys2Proof.Machine
end


section
/-! PROOFS. What the requests that end no session do to the accounts, gathered (R119, R148). -/

namespace Sys2Proof.Machine

open Sys2Proof.Safety

/-! ### CANCEL -/

/-- What a request that waits under a tag leaves its record in. -/
theorem state_of_waitsUnder {i : RecNo} {x : RecState} {m : LinkNo} {z : OpenTag} (waits : waitsUnder i x = some (m, z)) :
    (∃ b n w h, x = .waiting m b n z.tag w h ∧ z.ref = .lockWait i) ∨
    (∃ b t w h, x = .converting m b t z.tag w h ∧ z.ref = .convert i) ∨
    ∃ b w, x = .watching m b z.tag w ∧ z.ref = .watch i := by
  cases x with
  | free => cases waits
  | held => cases waits
  | waiting => cases waits; exact .inl ⟨_, _, _, _, rfl, rfl⟩
  | converting => cases waits; exact .inr (.inl ⟨_, _, _, _, rfl, rfl⟩)
  | watching => cases waits; exact .inr (.inr ⟨_, _, rfl, rfl⟩)

theorem cancelEntry_keeps {l : LinkNo} {x : OpenTag} {s : State} {live : Bool} {extra room : Nat}
    (listed : x ∈ (s.session l).tags) (account : AccountSound s l live extra room) (arrival : ArrivalSound s l) :
    Upholds s (cancelEntry l x s) ∧
      ((cancelEntry l x s).session l).tags = (s.session l).tags.filter (·.tag ≠ x.tag) := by
  obtain ⟨tag, ref⟩ := x
  cases ref with
  | arrival g =>
    obtain ⟨a, entry, own, rfl⟩ := arrival.names _ listed g rfl
    refine ⟨upholds_withdraw entry own, ?_⟩
    show ((withdraw l a.tag g s).session l).tags = _
    rw [withdraw_eq]
    exact congrArg Session.tags ((Vector.get_set_fin ..).trans (if_pos rfl))
  | lockWait i =>
    rcases state_of_waitsUnder (account.names _ listed i rfl) with ⟨b, n, w, h, state, ref⟩ | ⟨b, t, w, h, state, ref⟩ |
      ⟨b, w, state, ref⟩
    · have concluded := concluded_endLockWait (notice := .cancelledRecord) state
      exact ⟨concluded.upholds, concluded.tags⟩
    · cases ref
    · cases ref
  | convert i =>
    rcases state_of_waitsUnder (account.names _ listed i rfl) with ⟨b, n, w, h, state, ref⟩ | ⟨b, t, w, h, state, ref⟩ |
      ⟨b, w, state, ref⟩
    · cases ref
    · have concluded := concluded_endConversion (notice := .cancelledRecord) state
      exact ⟨concluded.upholds, concluded.tags⟩
    · cases ref
  | watch i =>
    rcases state_of_waitsUnder (account.names _ listed i rfl) with ⟨b, n, w, h, state, ref⟩ | ⟨b, t, w, h, state, ref⟩ |
      ⟨b, w, state, ref⟩
    · cases ref
    · cases ref
    · have concluded := concluded_endWatch (notice := .cancelledRecord) state
      exact ⟨concluded.upholds, concluded.tags⟩

theorem upholds_scanAfterCancel (ref : TagRef) (s : State) : Upholds s (scanAfterCancel ref s) := by
  cases ref with
  | arrival g => exact .refl s
  | lockWait i => exact upholds_grantScan s
  | convert i => exact upholds_grantScan s
  | watch i => exact upholds_grantScan s

/-! ### OPEN and ARRIVE -/

/-- A session opens: it has no tags and no records, and its reservation is set aside (R109). -/
theorem SessionsAgree.opens {l : LinkNo} {s : State} (h : SessionsAgree (roomFor l 3) s)
    (closed : (s.session l).state = .closed) : SessionsAgree (roomFor l 1) (openUp l s) := by
  obtain ⟨links, rounds⟩ := h
  refine ⟨fun m => ?_, rounds⟩
  obtain ⟨account, arrival⟩ := links m
  by_cases here : m = l
  · subst here
    rw [LinkSound, roomFor_self]
    rw [roomFor_self, not_isOpen_of_closed closed] at account
    have tags : ((openUp m s).session m).tags = (s.session m).tags := by
      simp [openUp, reserve, putSessState]
    have is_open : ((openUp m s).session m).isOpen = true := by
      simp [openUp, reserve, putSessState, Session.isOpen]
    have link : (openUp m s).link m = { s.link m with reserved := (s.link m).reserved + 1 } := State.link_putLink_self ..
    have balance := account.account
    have within := account.within
    rw [is_open]
    refine ⟨⟨tags ▸ account.distinct, tags ▸ account.few, tags ▸ account.nonzero, tags ▸ account.names,
      tags ▸ account.waits, fun shut => (by cases shut), fun _ _ => rfl, ?_, ?_, ?_⟩,
      arrival.congr tags (fun _ _ _ => Iff.rfl) fun _ => rfl⟩
    · rw [link, tags]
      exact congrArg (· + 1) balance
    · rw [link]
      show (s.link m).queued + ((s.link m).reserved + 1) + 1 ≤ 40
      omega
    · rw [link]
      show (s.link m).reserved + 1 ≤ 39
      omega
  · have link : (openUp l s).link m = s.link m := State.link_putLink_ne _ _ _ _ (Ne.symm here)
    have session : (openUp l s).session m = s.session m := by
      simp [openUp, reserve, putSessState, State.session_putSession_ne _ _ _ _ (Ne.symm here)]
    rw [LinkSound, roomFor_other here, session]
    rw [roomFor_other here] at account
    exact ⟨account.congr (by rw [session]) (fun _ => .inl rfl) (by rw [link]) (by rw [link]),
      arrival.congr (by rw [session]) (fun _ _ _ => Iff.rfl) fun _ => rfl⟩

/-- A member that has not arrived joins a round that its arrival does not complete (R96). -/
theorem SessionsAgree.arrives {l : LinkNo} {tag : Byte} {g : GroupNo} {d : Option Instant} {s : State}
    (h : SessionsAgree (roomFor l 3) s) (profile : ProfileInRange s) (is_open : (s.session l).isOpen = true)
    (fresh : tag ≠ 0 ∧ (∀ x ∈ (s.session l).tags, x.tag ≠ tag) ∧ (s.session l).tags.length < 16)
    (member : (s.groupDef g).has l = true) (absent : hasArrived (s.group g).arrivals l = false)
    (incomplete : s.completes g l = false) (list : List Arrival)
    (appended : list = (s.group g).arrivals ++ [{ link := l, tag := tag, due := d }]) :
    SessionsAgree (roomFor l 1) (openTag l tag (.arrival g) (s.putGroup g { s.group g with arrivals := list })) := by
  obtain ⟨links, rounds⟩ := h
  have absent : ∀ a ∈ (s.group g).arrivals, a.link ≠ l := fun a listed own => by
    rw [Bool.eq_false_iff] at absent
    exact absent ((hasArrived_iff _ l).2 ⟨a, listed, own⟩)
  obtain ⟨t, def_t⟩ : ∃ t, t = openTag l tag (.arrival g) (s.putGroup g { s.group g with arrivals := list }) := ⟨_, rfl⟩
  have arrivals (k : GroupNo) : (t.group k).arrivals = if g = k then list else (s.group k).arrivals := by
    rw [def_t]
    show ((s.putGroup g { s.group g with arrivals := list }).group k).arrivals = _
    rw [State.group_putGroup, apply_ite Group.arrivals]
  have session (m : LinkNo) : t.session m = if l = m then { s.session l with
      tags := (s.session l).tags ++ [{ tag := tag, ref := .arrival g }] } else s.session m := by
    rw [def_t]
    exact State.session_putSession ..
  have link (m : LinkNo) : t.link m = if l = m then { s.link l with reserved := (s.link l).reserved + 1 }
      else s.link m := by
    rw [def_t]
    exact State.link_putLink ..
  have record (i : RecNo) : t.record i = s.record i := by rw [def_t]; rfl
  have groupDef (k : GroupNo) : t.groupDef k = s.groupDef k := by rw [def_t]; rfl
  have joins (k : GroupNo) (a : Arrival) (listed : a ∈ (t.group k).arrivals) : a ∈ (s.group k).arrivals ∨
      k = g ∧ a = { link := l, tag := tag, due := d } := by
    rw [arrivals] at listed
    split at listed
    · rename_i same
      subst same
      rw [appended, List.mem_append, List.mem_singleton] at listed
      exact listed.imp_right fun new => ⟨rfl, new⟩
    · exact .inl listed
  have stays (k : GroupNo) (a : Arrival) (listed : a ∈ (s.group k).arrivals) : a ∈ (t.group k).arrivals := by
    rw [arrivals]
    split
    · rename_i same
      subst same
      rw [appended]
      exact List.mem_append_left _ listed
    · exact listed
  rw [← def_t]
  refine ⟨fun m => ?_, fun k => ?_⟩
  · obtain ⟨account, arrival⟩ := links m
    by_cases here : m = l
    · subst here
      have tags : (t.session m).tags =
          (s.session m).tags ++ (some ({ tag := tag, ref := .arrival g } : OpenTag)).toList := by
        rw [session, if_pos rfl]; rfl
      have shut : (t.session m).isOpen = true := by
        rw [session, if_pos rfl]; exact is_open
      rw [roomFor_self, is_open] at account
      rw [LinkSound, roomFor_self, shut]
      refine ⟨account.takesOn (held := 0) tags (fun z new => Option.some.inj new ▸ fresh)
        (fun z new i ref => ?_) (fun i x waits => ?_) (fun i x waits => .inl ?_) ?_ ?_ ?_ (Nat.le_succ 2) le_rfl,
        arrival.takesOn tags (fun z new k ref => ?_) stays (fun k a listed own => ?_) groupDef⟩
      · rw [← Option.some.inj new] at ref
        cases ref
      · rw [record]; exact waits
      · rwa [record] at waits
      · exact countRecords_congr _ _ fun i => by rw [record]
      · rw [link, if_pos rfl]; rfl
      · rw [link, if_pos rfl]; rfl
      · cases Option.some.inj new
        cases ref
        refine ⟨{ link := m, tag := tag, due := d }, ?_, rfl, rfl⟩
        rw [arrivals, if_pos rfl, appended]
        exact List.mem_append_right _ (List.mem_singleton.2 rfl)
      · rcases joins k a listed with old | ⟨rfl, rfl⟩
        · exact .inl old
        · exact .inr ⟨rfl, member⟩
    · have same : t.session m = s.session m := by rw [session, if_neg (Ne.symm here)]
      have same_link : t.link m = s.link m := by rw [link, if_neg (Ne.symm here)]
      rw [roomFor_other here] at account
      rw [LinkSound, roomFor_other here, same]
      refine ⟨account.congr (by rw [same]) (fun i => .inl (by rw [record])) (by rw [same_link]) (by rw [same_link]),
        arrival.congr (by rw [same]) (fun k a own => ⟨fun listed => ?_, stays k a⟩) fun k => by rw [groupDef]⟩
      rcases joins k a listed with old | ⟨-, rfl⟩
      · exact old
      · exact absurd own.symm here
  · obtain ⟨distinct, quorum⟩ := rounds k
    rw [groupDef, arrivals]
    split
    · rename_i same
      subst same
      rw [appended]
      refine ⟨?_, fun mode _ => ?_⟩
      · rw [List.map_append, List.nodup_append]
        refine ⟨distinct, List.nodup_singleton _, fun a old b new => ?_⟩
        obtain ⟨x, listed, rfl⟩ := List.mem_map.1 old
        rw [List.mem_singleton.1 new]
        exact absent x listed
      · have another : (s.group g).arrivals.length + 1 ≠ (s.groupDef g).k := fun full => by
          rw [Bool.eq_false_iff] at incomplete
          exact incomplete ((completes_iff s g l).2 (.inr ⟨mode, full⟩))
        obtain ⟨-, -, groups⟩ := profile
        obtain ⟨low, -⟩ := groups g
        rw [List.length_append, List.length_singleton]
        by_cases empty : (s.group g).arrivals = []
        · rw [empty] at another ⊢
          have : (1 : Nat) ≠ (s.groupDef g).k := another
          show 0 + 1 < _
          omega
        · have := quorum mode empty
          omega
    · exact ⟨distinct, quorum⟩

/-! ### SET_LINK -/

theorem queued_switched (old new : LinkSettings) (u : LinkUnit) : (switched old new u).reserved = u.reserved ∧
    (switched old new u).queued ≤ u.queued := by
  have survive : (survivors u).length ≤ u.outbound.length := by
    rw [← keptByFlush_eq, LinkUnit.keptByFlush]
    split
    · exact (List.take_sublist _ _).length_le
    · exact Nat.zero_le _
  unfold switched
  split
  · exact ⟨rfl, survive⟩
  · split
    · exact ⟨rfl, (List.drop_sublist _ _).length_le⟩
    · exact ⟨rfl, le_rfl⟩

theorem account_adopted (p : LinkSettings) (u : LinkUnit) : (adopted p u).reserved = u.reserved ∧
    (adopted p u).queued = u.queued := by
  obtain ⟨-, -, outbound, reserved, -⟩ := adopted_fields p u
  exact ⟨reserved, congrArg List.length outbound⟩

theorem account_writeLink (n : LinkNo) (new : LinkSettings) (s : State) (m : LinkNo) :
    ((writeLink n new s).link m).reserved = (s.link m).reserved ∧
      ((writeLink n new s).link m).queued ≤ (s.link m).queued := by
  have switch := queued_switched (s.settings n) new (s.link n)
  rw [writeLink_eq, State.link, Vector.get_set_fin]
  split
  · rename_i same
    subst same
    split
    · exact switch
    · obtain ⟨reserved, queued⟩ := account_adopted new (switched (s.settings n) new (s.link n))
      rw [reserved, queued]
      exact switch
  · exact ⟨rfl, le_rfl⟩

end Sys2Proof.Machine
end


section
/-! PROOFS. What the ends of sessions do to records, groups and accounts (R111, R114, R117, R118). -/

namespace Sys2Proof.Machine

open Sys2Proof.Safety

/-! ### The records of a link freed -/

/-- What a free of every record of link `l` leaves of a record. -/
def freedOf (l : LinkNo) (r : Record) : Record := if r.state.owner = some l then freed r else r

theorem record_freeOwned {freeOne : RecNo → State → State} {l : LinkNo}
    (one : ∀ t i, (t.record i).state.owner = some l → (freeOne i t).records = (freeRecord i t).records) (s : State)
    (i : RecNo) : (freeOwned freeOne l s).record i = freedOf l (s.record i) := by
  have each := foldl_each (fun t j => t.record j)
    (fun t i => if (t.record i).state.owner = some l then freeOne i t else t) (freedOf l) (fun t i j => ?_)
    (List.finRange 128) (List.nodup_finRange 128) s i
  · rw [if_pos (List.mem_finRange i)] at each
    exact each
  · by_cases owner : (t.record i).state.owner = some l
    · have same : (freeOne i t).record j = (freeRecord i t).record j := congrArg (·.get j) (one t i owner)
      rw [if_pos owner, same, record_freeRecord i t l owner, freedOf, if_pos owner]
    · rw [if_neg owner, freedOf, if_neg owner]
      split
      · rename_i same; rw [same]
      · rfl

theorem records_freeHolding {i : RecNo} {s : State} {l : LinkNo} (owner : (s.record i).state.owner = some l) :
    (freeHolding i s).records = (freeRecord i s).records := by
  rw [freeHolding, returnHold_eq _ l _ owner]
  rfl

theorem owner_freedOf (l : LinkNo) (r : Record) : (freedOf l r).state.owner ≠ some l := by
  unfold freedOf
  split
  · exact fun owner => by cases owner
  · assumption

theorem state_freedOf_other {l m : LinkNo} (other : m ≠ l) (r : Record) : (freedOf l r).state = r.state ∨
    r.state.owner ≠ some m ∧ (freedOf l r).state.owner ≠ some m := by
  unfold freedOf
  split
  · rename_i owner
    exact .inr ⟨fun mine => other (Option.some.inj (mine.symm.trans owner)), fun mine => by cases mine⟩
  · exact .inl rfl

/-- A silent free of every record of a link leaves link units, tags and groups (R74). -/
theorem freeOwned_frame (l : LinkNo) (s : State) : SameControl s (freeOwned freeRecord l s) ∧
    (∀ m, ((freeOwned freeRecord l s).session m).state = (s.session m).state ∧
      ((freeOwned freeRecord l s).session m).tags = (s.session m).tags) ∧
    (freeOwned freeRecord l s).tokens = s.tokens ∧ (freeOwned freeRecord l s).links = s.links ∧
    (freeOwned freeRecord l s).groups = s.groups := by
  refine freeOwned_induct (fun t => SameControl s t ∧ (∀ m, (t.session m).state = (s.session m).state ∧
    (t.session m).tags = (s.session m).tags) ∧ t.tokens = s.tokens ∧ t.links = s.links ∧ t.groups = s.groups) freeRecord l
    ?_ s ⟨sameControl_refl s, fun _ => ⟨rfl, rfl⟩, rfl, rfl, rfl⟩
  rintro t i ⟨control, sessions, tokens, links, groups⟩ -
  obtain ⟨control', sessions', tokens', links', groups'⟩ := freeRecord_frame i t
  exact ⟨sameControl_trans control control',
    fun m => ⟨(sessions' m).1.trans (sessions m).1, (sessions' m).2.trans (sessions m).2⟩, tokens'.trans tokens,
    links'.trans links, groups'.trans groups⟩

/-! ### The departure, group by group (R103) -/

/-- A group once its member `l` has departed. -/
def departed (l : LinkNo) (v : GroupDef × Group) : GroupDef × Group :=
  (v.1, if v.1.has l = true ∧ v.2.arrivals ≠ [] then { generation := v.2.generation + 1, arrivals := [] } else v.2)

theorem group_depart (l : LinkNo) (s : State) (g : GroupNo) : (depart l s).group g =
    if (s.groupDef g).has l = true ∧ (s.group g).arrivals ≠ []
    then { generation := (s.group g).generation + 1, arrivals := [] } else s.group g := by
  have each := foldl_each (fun t k => (t.groupDef k, t.group k)) (departGroup l) (departed l) (fun t k j => ?_)
    (List.finRange 8) (List.nodup_finRange 8) s g
  · rw [if_pos (List.mem_finRange g)] at each
    exact congrArg Prod.snd each
  · have groupDef : (departGroup l t k).groupDef j = t.groupDef j :=
      congrArg (·.groups.get j) (roundFrame_departGroup l k t).profile
    rw [groupDef, departed]
    by_cases breaks : (t.groupDef k).has l = true ∧ (t.group k).arrivals ≠ []
    · have gathers : ((t.groupDef k).has l && (t.group k).gathering) = true := by
        simpa [Group.gathering] using breaks
      rw [departGroup, if_pos gathers, group_breakRound, if_pos breaks]
      split
      · rename_i same; rw [same]
      · rfl
    · have quiet : ¬ ((t.groupDef k).has l && (t.group k).gathering) = true := by
        simpa [Group.gathering] using breaks
      rw [departGroup, if_neg quiet, if_neg breaks]
      split
      · rename_i same; rw [same]
      · rfl

/-! ### A failure end (R74, R75, R103) -/

/-- A link that owns no record and has no tag and no reservation. -/
theorem accountSound_empty {s : State} {m : LinkNo} {extra room : Nat} (tags : (s.session m).tags = [])
    (owner : ∀ i, (s.record i).state.owner ≠ some m) (reserved : (s.link m).reserved = extra)
    (within : (s.link m).queued + (s.link m).reserved + room ≤ 40) (below : (s.link m).reserved ≤ 39) :
    AccountSound s m false extra room := by
  have count : s.countRecords (heldBy m) = 0 :=
    countRecords_eq_zero fun i => by simp [heldBy, owner i]
  refine ⟨by simp [tags], by simp [tags], by simp [tags], by simp [tags], fun i x waits => ?_, fun _ => tags,
    fun i mine => absurd mine (owner i), by simp [tags, count, reserved], within, below⟩
  exact absurd (owner_of_waitsUnder waits) (owner i)

theorem arrivalSound_empty {s : State} {m : LinkNo} (tags : (s.session m).tags = [])
    (absent : ∀ g, ∀ a ∈ (s.group g).arrivals, a.link ≠ m) : ArrivalSound s m :=
  ⟨fun _ listed => absurd (tags ▸ listed) List.not_mem_nil, fun g a listed link => absurd link (absent g a listed),
    fun g a listed link => absurd link (absent g a listed)⟩

theorem sessionsAgree_failureEnd {room : LinkNo → Nat} {l : LinkNo} {s : State} (rounds : RoundsSound s)
    (others : ∀ m, m ≠ l → LinkSound s m (room m)) (tags : (s.session l).tags = [])
    (shut : (s.session l).isOpen = false) (reserved : (s.link l).reserved = 0)
    (within : (s.link l).queued + room l ≤ 40)
    (member : ∀ g, ∀ a ∈ (s.group g).arrivals, a.link = l → (s.groupDef g).has l = true) :
    SessionsAgree room (failureEnd l s) := by
  have states := (works_failureEnd l s).state
  obtain ⟨v, def_v⟩ : ∃ v, v = freeOwned freeRecord l s := ⟨_, rfl⟩
  have frame := freeOwned_frame l s
  have record := record_freeOwned (freeOne := freeRecord) (l := l) (fun _ _ _ => rfl) s
  have ended : failureEnd l s = depart l (grantScan v) := by rw [def_v]; rfl
  rw [← def_v] at frame record
  obtain ⟨control, sessions, -, links, groups⟩ := frame
  have profile := profile_of_sameControl control
  have link (m : LinkNo) : v.link m = s.link m := congrArg (·.get m) links
  have group (g : GroupNo) : v.group g = s.group g := congrArg (·.get g) groups
  have groupDef (g : GroupNo) : v.groupDef g = s.groupDef g := congrArg (·.groups.get g) profile
  have freed_account : AccountSound v l false 0 (room l) := by
    refine accountSound_empty ((sessions l).2.trans tags) (fun i => record i ▸ owner_freedOf l _) ?_ ?_ ?_
    · rw [link, reserved]
    · rw [link, reserved]; exact within
    · rw [link, reserved]; exact Nat.zero_le _
  have freed_others (m : LinkNo) (other : m ≠ l) :
      AccountSound v m (s.session m).isOpen (s.session m).isOpen.toNat (room m) ∧ ArrivalSound v m := by
    obtain ⟨account, arrival⟩ := others m other
    exact ⟨account.congr (sessions m).2 (fun i => record i ▸ state_freedOf_other other _) (by rw [link]) (by rw [link]),
      arrival.congr (sessions m).2 (fun g a _ => by rw [group]) fun g => by rw [groupDef]⟩
  have rounds_v : RoundsSound v := rounds.congr groups profile
  have scan := upholds_grantScan v
  obtain ⟨scan_control, scan_groups⟩ := grantScan_frame v
  have scanned := accountSound_grantScan freed_account
  obtain ⟨w, def_w⟩ : ∃ w, w = grantScan v := ⟨_, rfl⟩
  rw [← def_w] at scan scan_control scan_groups scanned ended
  have group_w (g : GroupNo) : w.group g = s.group g := (congrArg (·.get g) scan_groups).trans (group g)
  have groupDef_w (g : GroupNo) : w.groupDef g = s.groupDef g :=
    (congrArg (·.groups.get g) (profile_of_sameControl scan_control)).trans (groupDef g)
  obtain ⟨rounds_t, others_t⟩ := depart_keeps (l := l) (scan.rounds rounds_v)
  obtain ⟨link_t, session_t⟩ := sameAccount_depart l w
  have record_t (i : RecNo) : (depart l w).record i = w.record i :=
    congrArg (·.get i) (records_of_pool (pool_depart l w))
  have group_t := group_depart l w
  rw [ended] at states ⊢
  refine ⟨fun m => ?_, rounds_t⟩
  rw [LinkSound, isOpen_eq_of_states states]
  by_cases here : m = l
  · subst here
    rw [shut]
    have tags_t : ((depart m w).session m).tags = [] := by rw [session_t]; exact scanned.idle rfl
    refine ⟨scanned.congr (by rw [session_t]) (fun i => .inl (by rw [record_t])) (by rw [link_t]) (by rw [link_t]),
      arrivalSound_empty tags_t fun g a listed own => ?_⟩
    rw [group_t] at listed
    split at listed
    · cases listed
    · rename_i stays
      refine stays ⟨groupDef_w g ▸ member g a (group_w g ▸ listed) own, fun empty => ?_⟩
      rw [empty] at listed
      cases listed
  · obtain ⟨account, arrival⟩ := freed_others m here
    obtain ⟨account, arrival⟩ := scan.links rounds_v m _ _ _ account arrival
    exact others_t m here _ _ _ account arrival

end Sys2Proof.Machine
end


section
/-! PROOFS. The ends of sessions keep the accounts in agreement (R111, R114, R117, R118). -/

namespace Sys2Proof.Machine

open Sys2Proof.Safety

/-! ### A lapse (R114, R156) -/

/-- A link unit once its queue is flushed (R156). -/
def flushedUnit (p : LinkSettings) (u : LinkUnit) : LinkUnit :=
  if (discarded u).any (·.adopts) = true then adopted p { u with outbound := survivors u, reserved := 1 }
  else { u with outbound := survivors u, reserved := 1 }

theorem flushedUnit_fields (p : LinkSettings) (u : LinkUnit) : (flushedUnit p u).outbound = survivors u ∧
    (flushedUnit p u).reserved = 1 ∧ (flushedUnit p u).intake = u.intake ∧ (flushedUnit p u).counters = u.counters ∧
    (flushedUnit p u).transmitter = u.transmitter := by
  unfold flushedUnit
  split
  · obtain ⟨-, -, outbound, reserved, intake, counters, transmitter, -⟩ :=
      adopted_fields p { u with outbound := survivors u, reserved := 1 }
    exact ⟨outbound, reserved, intake, counters, transmitter⟩
  · exact ⟨rfl, rfl, rfl, rfl, rfl⟩

theorem flush_eq_putLink (l : LinkNo) (s : State) :
    flush l s = s.putLink l (flushedUnit (s.settings l) (s.link l)) := flush_eq l s

theorem length_survivors_le (u : LinkUnit) : (survivors u).length ≤ 1 := by
  unfold survivors
  cases u.transmitter with
  | sending => exact List.length_take_le 1 _
  | idle => exact Nat.zero_le _
  | finishing => exact Nat.zero_le _

/-- The state of a lapse before the lock engine and the barrier unit are told: the tags are dropped, the queue is flushed and
ENDED stands in the session reservation (R114). -/
def lapseBegun (l : LinkNo) (cause : EndCause) (s : State) : State :=
  queueReserved l 0 (.ended cause) (flush l (dropTags l (putSessState l .lapsed s)))

theorem lapse_eq (l : LinkNo) (cause : EndCause) (s : State) : lapse l cause s = failureEnd l (lapseBegun l cause s) := rfl

theorem lapseBegun_eq (l : LinkNo) (cause : EndCause) (s : State) : lapseBegun l cause s =
    (s.putSession l { s.session l with state := .lapsed, tags := [] }).putLink l
      { flushedUnit (s.settings l) (s.link l) with
        outbound := survivors (s.link l) ++ [{ tag := 0, msg := .ended cause, adopts := false }], reserved := 0 } := by
  have session : dropTags l (putSessState l .lapsed s) =
      s.putSession l { s.session l with state := .lapsed, tags := [] } := by
    simp [dropTags, putSessState]
  obtain ⟨outbound, reserved, -⟩ := flushedUnit_fields (s.settings l) (s.link l)
  rw [lapseBegun, session, flush_eq_putLink, queueReserved]
  simp only [State.link_putLink_self, State.putLink_putLink, State.putSession_link, State.putSession_settings, outbound,
    reserved]

theorem lapseBegun_session (l : LinkNo) (cause : EndCause) (s : State) (m : LinkNo) : (lapseBegun l cause s).session m =
    if l = m then { s.session l with state := .lapsed, tags := [] } else s.session m := by
  rw [lapseBegun_eq]
  exact State.session_putSession ..

theorem lapseBegun_link (l : LinkNo) (cause : EndCause) (s : State) (m : LinkNo) : (lapseBegun l cause s).link m =
    if l = m then { flushedUnit (s.settings l) (s.link l) with
      outbound := survivors (s.link l) ++ [{ tag := 0, msg := .ended cause, adopts := false }], reserved := 0 }
    else s.link m := by
  rw [lapseBegun_eq]
  exact State.link_putLink ..

theorem lapseBegun_frame (l : LinkNo) (cause : EndCause) (s : State) : SameControl s (lapseBegun l cause s) ∧
    (lapseBegun l cause s).pool = s.pool ∧ (lapseBegun l cause s).groups = s.groups := by
  rw [lapseBegun_eq]
  exact ⟨⟨rfl, rfl, rfl, rfl, rfl, rfl, rfl, rfl, rfl⟩, rfl, rfl⟩

/-- What a failure end asks of the state it starts in, for an event that has touched link `l` alone. -/
theorem sessionsAgree_failureEnd_of_touched {room : LinkNo → Nat} {l : LinkNo} {s u : State} (h : SessionsAgree room s)
    (control : SameControl s u) (pool : u.pool = s.pool) (groups : u.groups = s.groups)
    (others : ∀ m, m ≠ l → u.session m = s.session m ∧ u.link m = s.link m) (tags : (u.session l).tags = [])
    (shut : (u.session l).isOpen = false) (reserved : (u.link l).reserved = 0)
    (within : (u.link l).queued + room l ≤ 40) : SessionsAgree room (failureEnd l u) := by
  obtain ⟨links, rounds⟩ := h
  have profile := profile_of_sameControl control
  have record (i : RecNo) : u.record i = s.record i := congrArg (·.get i) (records_of_pool pool)
  have group (g : GroupNo) : u.group g = s.group g := congrArg (·.get g) groups
  have groupDef (g : GroupNo) : u.groupDef g = s.groupDef g := congrArg (·.groups.get g) profile
  refine sessionsAgree_failureEnd (rounds.congr groups profile) (fun m other => ?_) tags shut reserved within
    fun g a listed own => ?_
  · obtain ⟨session, link⟩ := others m other
    obtain ⟨account, arrival⟩ := links m
    rw [LinkSound, session]
    exact ⟨account.congr (by rw [session]) (fun i => .inl (by rw [record])) (by rw [link]) (by rw [link]),
      arrival.congr (by rw [session]) (fun g a _ => by rw [group]) fun g => by rw [groupDef]⟩
  · rw [group] at listed
    rw [groupDef]
    exact (links l).2.member g a listed own

theorem SessionsAgree.lapse {room : LinkNo → Nat} {s : State} (h : SessionsAgree room s) (l : LinkNo) (cause : EndCause)
    (few : room l ≤ 38) : SessionsAgree room (lapse l cause s) := by
  rw [lapse_eq]
  obtain ⟨control, pool, groups⟩ := lapseBegun_frame l cause s
  have session := (lapseBegun_session l cause s l).trans (if_pos rfl)
  have link := (lapseBegun_link l cause s l).trans (if_pos rfl)
  refine sessionsAgree_failureEnd_of_touched h control pool groups (fun m other => ?_) ?_ ?_ ?_ ?_
  · rw [lapseBegun_session, lapseBegun_link, if_neg (Ne.symm other), if_neg (Ne.symm other)]
    exact ⟨rfl, rfl⟩
  · rw [session]
  · rw [session]; rfl
  · rw [link]
  · have survive := length_survivors_le (s.link l)
    rw [link]
    show (survivors (s.link l) ++ _).length + room l ≤ 40
    rw [List.length_append, List.length_singleton]
    omega

/-- A link whose session is not OPEN has nothing reserved. -/
theorem AccountSound.reserved_of_shut {s : State} {m : LinkNo} {room : Nat} (h : AccountSound s m false 0 room) :
    (s.link m).reserved = 0 := by
  have count : s.countRecords (heldBy m) = 0 := countRecords_eq_zero fun i => by
    have free : (s.record i).state.owner ≠ some m := fun owner => Bool.noConfusion (h.owns i owner)
    simp [heldBy, free]
  rw [h.account, h.idle rfl, count]
  rfl

/-! ### The end of a break (R143, R117) -/

/-- A link unit once a break has cleared it (R143). -/
def clearedUnit (p : LinkSettings) (u : LinkUnit) : LinkUnit :=
  let v : LinkUnit := { u with
    receiver := .hunt, inCharacter := false, gapTimer := .stopped
    intake := [], outbound := [], reserved := 0, transmitter := u.transmitter.abort }
  if u.outbound.any (·.adopts) then adopted p v else v

theorem clearLink_eq (l : LinkNo) (s : State) :
    clearLink l s = s.putLink l (clearedUnit (s.settings l) (s.link l)) := by
  unfold clearLink clearedUnit
  dsimp only
  rw [adopt_eq]
  split
  · simp
  · rfl

theorem clearedUnit_fields (p : LinkSettings) (u : LinkUnit) : (clearedUnit p u).outbound = [] ∧
    (clearedUnit p u).reserved = 0 ∧ (clearedUnit p u).intake = [] ∧ (clearedUnit p u).counters = u.counters ∧
    (clearedUnit p u).transmitter = u.transmitter.abort := by
  unfold clearedUnit
  dsimp only
  split
  · obtain ⟨-, -, outbound, reserved, intake, counters, transmitter, -⟩ := adopted_fields p { u with
      receiver := .hunt, inCharacter := false, gapTimer := .stopped
      intake := [], outbound := [], reserved := 0, transmitter := u.transmitter.abort }
    exact ⟨outbound, reserved, intake, counters, transmitter⟩
  · exact ⟨rfl, rfl, rfl, rfl, rfl⟩

theorem sessionAtBreak_of_open {l : LinkNo} {s : State} (is_open : (s.session l).isOpen = true) :
    sessionAtBreak l s = failureEnd l (s.putSession l { s.session l with state := .closed, tags := [] }) := by
  obtain ⟨d, e, state⟩ := Session.isOpen_cases is_open
  have session : dropTags l (putSessState l .closed s) =
      s.putSession l { s.session l with state := .closed, tags := [] } := by
    simp [dropTags, putSessState]
  simp only [sessionAtBreak, state, session]

theorem sessionAtBreak_of_shut {l : LinkNo} {s : State} (shut : (s.session l).isOpen = false) :
    sessionAtBreak l s = s.putSession l { s.session l with state := .closed } := by
  cases state : (s.session l).state with
  | opened d e => simp [Session.isOpen, state] at shut
  | lapsed => simp only [sessionAtBreak, state]; rfl
  | closed =>
    simp only [sessionAtBreak, state]
    rw [← state]
    exact (State.putSession_session_self s l).symm

theorem SessionsAgree.break {s : State} (h : SessionsAgree (fun _ => 0) s) (l : LinkNo) :
    SessionsAgree (fun _ => 0) (sessionAtBreak l (clearLink l s)) := by
  obtain ⟨outbound, reserved, -⟩ := clearedUnit_fields (s.settings l) (s.link l)
  rw [clearLink_eq]
  cases is_open : (s.session l).isOpen with
  | true =>
    rw [sessionAtBreak_of_open (by exact is_open)]
    refine sessionsAgree_failureEnd_of_touched h ⟨rfl, rfl, rfl, rfl, rfl, rfl, rfl, rfl, rfl⟩ rfl rfl
      (fun m other => ⟨State.session_putSession_ne _ _ _ _ (Ne.symm other), State.link_putLink_ne _ _ _ _ (Ne.symm other)⟩)
      ?_ ?_ ?_ ?_
    · rw [State.session_putSession_self]
    · rw [State.session_putSession_self]; rfl
    · rw [State.putSession_link, State.link_putLink_self, reserved]
    · rw [State.putSession_link, State.link_putLink_self, LinkUnit.queued, outbound]
      exact Nat.zero_le _
  | false =>
    rw [sessionAtBreak_of_shut (by exact is_open)]
    obtain ⟨account, -⟩ := h.1 l
    rw [is_open] at account
    have none_ := account.reserved_of_shut
    refine h.of_links (fun m => ?_) rfl rfl rfl fun m => ?_
    · by_cases here : l = m
      · subst here
        rw [State.session_putSession_self]
        exact ⟨rfl, is_open.symm⟩
      · rw [State.session_putSession_ne _ _ _ _ here]
        exact ⟨rfl, rfl⟩
    · rw [State.putSession_link, State.link_putLink]
      split
      · rename_i same
        subst same
        rw [reserved, none_, LinkUnit.queued, outbound]
        exact ⟨rfl, Nat.zero_le _⟩
      · exact ⟨rfl, le_rfl⟩

/-! ### RESTART and resets (R118, R158) -/

/-- Without tags, records, arrivals and reservations everything agrees. -/
theorem sessionsAgree_empty {room : LinkNo → Nat} {t : State} (tags : ∀ m, (t.session m).tags = [])
    (shut : ∀ m, (t.session m).isOpen = false) (free : ∀ i, (t.record i).state = .free)
    (links : ∀ m, (t.link m).reserved = 0 ∧ (t.link m).queued + room m ≤ 40)
    (arrivals : ∀ g, (t.group g).arrivals = []) : SessionsAgree room t := by
  refine ⟨fun m => ?_, fun g => ?_⟩
  · obtain ⟨reserved, queued⟩ := links m
    rw [LinkSound, shut]
    refine ⟨accountSound_empty (tags m) (fun i owner => ?_) reserved (by rw [reserved]; exact queued)
      (by rw [reserved]; exact Nat.zero_le _), arrivalSound_empty (tags m) fun g a listed => ?_⟩
    · rw [free] at owner; cases owner
    · rw [arrivals] at listed; cases listed
  · rw [arrivals]
    exact ⟨List.nodup_nil, fun _ gathers => absurd rfl gathers⟩

theorem SessionsAgree.restart {l : LinkNo} {s : State} (h : SessionsAgree (roomFor l 1) s) :
    SessionsAgree (roomFor l 1) (clearGroups (clearPool (endSessions { s with service := .setup }))) := by
  have session := session_restartedState s
  have link := link_restartedState s
  have state := fun i => state_cleared (endSessions { s with service := .setup }) i
  have group := fun g => group_cleared (endSessions { s with service := .setup }) g
  rw [restartedState] at session link
  obtain ⟨t, def_t⟩ : ∃ t, t = clearGroups (clearPool (endSessions { s with service := .setup })) := ⟨_, rfl⟩
  rw [← def_t] at session link state group ⊢
  refine sessionsAgree_empty (fun m => ?_) (fun m => ?_) state (fun m => ?_) fun g => by rw [group]; rfl
  · obtain ⟨account, -⟩ := h.1 m
    rw [session]
    show (endedSession (s.session m)).tags = []
    unfold endedSession
    split
    · rfl
    · exact account.idle (not_isOpen_of_lapsed ‹_›)
    · exact account.idle (not_isOpen_of_closed ‹_›)
  · rw [session]
    exact not_isOpen_of_closed (endedSession_state (s.session m))
  · obtain ⟨account, -⟩ := h.1 m
    obtain ⟨ended, kept⟩ := endedUnit_account (s.settings m) (s.session m) (s.link m)
    have room : roomFor l 1 m ≤ 1 := by
      unfold roomFor
      split
      · exact le_rfl
      · exact Nat.zero_le 1
    rw [link]
    cases is_open : (s.session m).isOpen with
    | true =>
      obtain ⟨reserved, outbound⟩ := ended is_open
      have survive := length_survivors_le (s.link m)
      refine ⟨reserved, ?_⟩
      rw [LinkUnit.queued, outbound, List.length_append, List.length_singleton]
      omega
    | false =>
      rw [is_open] at account
      rw [kept is_open]
      exact ⟨account.reserved_of_shut, Nat.le_trans (Nat.add_le_add_right (Nat.le_add_right _ _) _) account.within⟩

end Sys2Proof.Machine
end


section
/-! PROOFS. The close sequence of an OPEN session (R111, R105, R76). -/

namespace Sys2Proof.Machine

open Sys2Proof.Safety

/-! ### Its open tags cancelled -/

theorem filter_tag_of_nodup {x : OpenTag} {rest : List OpenTag} (distinct : ((x :: rest).map (·.tag)).Nodup) :
    (x :: rest).filter (·.tag ≠ x.tag) = rest := by
  obtain ⟨fresh, -⟩ := List.nodup_cons.1 distinct
  rw [List.filter_cons_of_neg (by simp)]
  exact List.filter_eq_self.2 fun y listed => decide_eq_true fun same => fresh (List.mem_map.2 ⟨y, listed, same⟩)

/-- Every tag of the list is cancelled in turn, and none is left. -/
theorem cancelEntries_keeps {l : LinkNo} {live : Bool} {extra room : Nat} (list : List OpenTag) {s : State}
    (tags : (s.session l).tags = list) (account : AccountSound s l live extra room) (arrival : ArrivalSound s l)
    (rounds : RoundsSound s) : Upholds s (list.foldl (fun t x => cancelEntry l x t) s) ∧
      ((list.foldl (fun t x => cancelEntry l x t) s).session l).tags = [] := by
  induction list generalizing s with
  | nil => exact ⟨.refl s, tags⟩
  | cons x rest ih =>
    have listed : x ∈ (s.session l).tags := tags ▸ List.mem_cons_self ..
    obtain ⟨upholds, left⟩ := cancelEntry_keeps listed account arrival
    rw [tags, filter_tag_of_nodup (tags ▸ account.distinct)] at left
    obtain ⟨account', arrival'⟩ := upholds.links rounds l _ _ _ account arrival
    obtain ⟨upholds', empty⟩ := ih left account' arrival' (upholds.rounds rounds)
    exact ⟨upholds.trans upholds', empty⟩

/-! ### The groups re-tested -/

/-- A re-test tells nothing to a link that stands in no list. -/
theorem sameAccount_retest {l k : LinkNo} {s : State} (absent : ∀ g, ∀ a ∈ (s.group g).arrivals, a.link ≠ k) :
    SameAccount k s (retest l s) := by
  have kept := foldl_keeps (P := fun t => SameAccount k s t ∧ ∀ g, ∀ a ∈ (t.group g).arrivals, a.link ≠ k)
    (retestGroup l) (fun t g ⟨same, absent⟩ => ?_) (List.finRange 8) (s := s) ⟨⟨rfl, rfl⟩, absent⟩
  · exact kept.1
  · unfold retestGroup
    split
    · refine ⟨same.trans (sameAccount_passRound g _ k t (absent g)), fun h a listed => ?_⟩
      rw [group_passRound] at listed
      split at listed
      · cases listed
      · exact absent h a listed
    · exact ⟨same, absent⟩

/-! ### Its holdings freed -/

theorem held_of_owner {i : RecNo} {x : RecState} {l : LinkNo} (owner : x.owner = some l) (idle : waitsUnder i x = none) :
    ∃ b m token h, x = .held l b m token h := by
  cases x with
  | held o b m token h => cases owner; exact ⟨b, m, token, h, rfl⟩
  | free => cases owner
  | waiting => cases idle
  | converting => cases idle
  | watching => cases idle

/-- A link without open tags has no record that waits. -/
theorem AccountSound.waitsUnder_eq_none {s : State} {l : LinkNo} {live : Bool} {extra room : Nat}
    (h : AccountSound s l live extra room) (tags : (s.session l).tags = []) {i : RecNo}
    (owner : (s.record i).state.owner = some l) : waitsUnder i (s.record i).state = none := by
  by_contra waits
  obtain ⟨⟨m, z⟩, waits⟩ := Option.ne_none_iff_exists'.1 waits
  obtain rfl : m = l := Option.some.inj ((owner_of_waitsUnder waits).symm.trans owner)
  have listed := h.waits i z waits
  rw [tags] at listed
  cases listed

theorem concluded_freeHolding_held {i : RecNo} {l : LinkNo} {b : Block} {m : Mode} {token : Word} {h : Option Hold}
    {s : State} (state : (s.record i).state = .held l b m token h) : Concluded l i .free none s (freeHolding i s) := by
  obtain ⟨o, closed, concluded⟩ := concluded_freeHolding (i := i) (token := token) (s := s) (by rw [state]; rfl)
  rw [concludeConversion_held i l b m token h s state] at concluded
  obtain rfl : l = o := Option.some.inj (by have owner := concluded.owner; rwa [state] at owner)
  obtain rfl : closed = none := by
    have waits := concluded.waits
    rw [state] at waits
    cases closed with
    | none => rfl
    | some z => cases waits
  exact concluded

theorem freeOwned_freeHolding_keeps {l : LinkNo} {extra room : Nat} {s : State} (tags : (s.session l).tags = [])
    (account : AccountSound s l true extra room) (arrival : ArrivalSound s l) (rounds : RoundsSound s) :
    Upholds s (freeOwned freeHolding l s) ∧ ((freeOwned freeHolding l s).session l).tags = [] := by
  refine freeOwned_induct (fun t => Upholds s t ∧ (t.session l).tags = []) freeHolding l
    (fun t i ⟨upholds, tags⟩ owner => ?_) s ⟨.refl s, tags⟩
  obtain ⟨account, -⟩ := upholds.links rounds l _ _ _ account arrival
  obtain ⟨b, m, token, h, state⟩ := held_of_owner owner (account.waitsUnder_eq_none tags owner)
  have concluded := concluded_freeHolding_held state
  exact ⟨upholds.trans concluded.upholds, concluded.tags.trans tags⟩

/-! ### The whole sequence -/

theorem putSessState_session_ne {l m : LinkNo} (other : m ≠ l) (x : SessState) (s : State) :
    (putSessState l x s).session m = s.session m := State.session_putSession_ne _ _ _ _ (Ne.symm other)

theorem tags_putSessState (l : LinkNo) (x : SessState) (s : State) (m : LinkNo) :
    ((putSessState l x s).session m).tags = (s.session m).tags := by
  rw [session_putSessState]
  split
  · rename_i same; subst same; rfl
  · rfl

theorem upholds_putSessState (l : LinkNo) (x : SessState) (s : State) : Upholds s (putSessState l x s) where
  rounds rounds := rounds.congr rfl rfl
  links _ m _ _ _ account arrival :=
    ⟨account.congr (tags_putSessState l x s m) (fun _ => .inl rfl) rfl le_rfl,
      arrival.congr (tags_putSessState l x s m) (fun _ _ _ => Iff.rfl) fun _ => rfl⟩

theorem SessionsAgree.closes {l : LinkNo} {s : State} (h : SessionsAgree (roomFor l 1) s)
    (is_open : (s.session l).isOpen = true) : SessionsAgree (roomFor l 1) (closeSequence l s) := by
  obtain ⟨links, rounds⟩ := h
  obtain ⟨account, arrival⟩ := links l
  rw [is_open, roomFor_self] at account
  have states := state_closeSequence l
  obtain ⟨p, def_p⟩ : ∃ p, p = putSessState l .closed (tagsCancelled l s) := ⟨_, rfl⟩
  have sequence : closeSequence l s = unreserve l (grantScan (freeOwned freeHolding l (retest l p))) := by rw [def_p]; rfl
  obtain ⟨cancelled, empty⟩ := cancelEntries_keeps _ rfl account arrival rounds
  have upholds_p : Upholds s p := def_p ▸ cancelled.trans (upholds_putSessState l .closed _)
  have tags_p : (p.session l).tags = [] := by rw [def_p, tags_putSessState]; exact empty
  obtain ⟨account_p, arrival_p⟩ := upholds_p.links rounds l _ _ _ account arrival
  have absent : ∀ g, ∀ a ∈ (p.group g).arrivals, a.link ≠ l := fun g a listed own => by
    have tag := arrival_p.arrived g a listed own
    rw [tags_p] at tag
    cases tag
  obtain ⟨q, def_q⟩ : ∃ q, q = retest l p := ⟨_, rfl⟩
  rw [← def_q] at sequence
  have upholds_q : Upholds s q := def_q ▸ upholds_p.trans (upholds_retest l p)
  have tags_q : (q.session l).tags = [] := by rw [def_q, (sameAccount_retest absent).2]; exact tags_p
  obtain ⟨account_q, arrival_q⟩ := upholds_q.links rounds l _ _ _ account arrival
  obtain ⟨upholds_r, tags_r⟩ := freeOwned_freeHolding_keeps tags_q account_q arrival_q (upholds_q.rounds rounds)
  have record := record_freeOwned (freeOne := freeHolding) (l := l) (fun _ _ => records_freeHolding) q
  obtain ⟨r, def_r⟩ : ∃ r, r = freeOwned freeHolding l q := ⟨_, rfl⟩
  rw [← def_r] at sequence upholds_r tags_r record
  have upholds_r := upholds_q.trans upholds_r
  have rounds_r := upholds_r.rounds rounds
  obtain ⟨account_r, arrival_r⟩ := upholds_r.links rounds l _ _ _ account arrival
  have shut : AccountSound r l false 1 1 := { account_r with
    idle := fun _ => tags_r
    owns := fun i owner => absurd owner (record i ▸ owner_freedOf l _) }
  have scan := upholds_grantScan r
  obtain ⟨account_g, arrival_g⟩ := scan.links rounds_r l _ _ _ shut arrival_r
  obtain ⟨g, def_g⟩ : ∃ g, g = grantScan r := ⟨_, rfl⟩
  rw [← def_g] at sequence scan account_g arrival_g
  have upholds_g := upholds_r.trans scan
  have link (m : LinkNo) : (unreserve l g).link m = if l = m then { g.link l with reserved := (g.link l).reserved - 1 }
      else g.link m := State.link_putLink ..
  refine ⟨fun m => ?_, sequence ▸ (upholds_g.rounds rounds).congr rfl rfl⟩
  have state := states m s
  rw [LinkSound]
  by_cases here : m = l
  · subst here
    rw [if_pos rfl] at state
    rw [not_isOpen_of_closed state, roomFor_self, sequence]
    have balance := account_g.account
    have within := account_g.within
    have below := account_g.below
    refine ⟨{ account_g with account := ?_, within := ?_, below := ?_ },
      arrival_g.congr rfl (fun _ _ _ => Iff.rfl) fun _ => rfl⟩
    · rw [link, if_pos rfl]
      show (g.link m).reserved - 1 = (g.session m).tags.length + g.countRecords (heldBy m) + 0
      omega
    · rw [link, if_pos rfl]
      show (g.link m).queued + ((g.link m).reserved - 1) + 1 ≤ 40
      omega
    · rw [link, if_pos rfl]
      show (g.link m).reserved - 1 ≤ 39
      omega
  · rw [if_neg (Ne.symm here)] at state
    rw [isOpen_of_state state, sequence]
    obtain ⟨account_m, arrival_m⟩ := links m
    obtain ⟨account_m, arrival_m⟩ := upholds_g.links rounds m _ _ _ account_m arrival_m
    have same : (unreserve l g).link m = g.link m := by rw [link, if_neg (Ne.symm here)]
    exact ⟨account_m.congr rfl (fun _ => .inl rfl) (by rw [same]) (by rw [same]),
      arrival_m.congr rfl (fun _ _ _ => Iff.rfl) fun _ => rfl⟩

end Sys2Proof.Machine
end


section
/-! PROOFS. Every step keeps tags, records, arrivals, sessions and the outbound accounts in agreement. -/

namespace Sys2Proof.Machine

open Sys2Proof.Safety

/-! ### Events of the link units -/

/-- Link units are written, none with a longer queue or another number of reservations; sessions keep their tags and stay open
or shut. -/
structure Quiet (s t : State) : Prop where
  sessions : ∀ m, (t.session m).tags = (s.session m).tags ∧ (t.session m).isOpen = (s.session m).isOpen
  records : t.records = s.records
  groups : t.groups = s.groups
  profile : t.profile = s.profile
  links : ∀ m, (t.link m).reserved = (s.link m).reserved ∧ (t.link m).queued ≤ (s.link m).queued

theorem Quiet.refl (s : State) : Quiet s s := ⟨fun _ => ⟨rfl, rfl⟩, rfl, rfl, rfl, fun _ => ⟨rfl, le_rfl⟩⟩

theorem Quiet.trans {s t u : State} (h : Quiet s t) (k : Quiet t u) : Quiet s u where
  sessions m := ⟨(k.sessions m).1.trans (h.sessions m).1, (k.sessions m).2.trans (h.sessions m).2⟩
  records := k.records.trans h.records
  groups := k.groups.trans h.groups
  profile := k.profile.trans h.profile
  links m := ⟨(k.links m).1.trans (h.links m).1, (k.links m).2.trans (h.links m).2⟩

theorem SessionsAgree.quiet {room : LinkNo → Nat} {s t : State} (h : SessionsAgree room s) (quiet : Quiet s t) :
    SessionsAgree room t := h.of_links quiet.sessions quiet.records quiet.groups quiet.profile quiet.links

theorem SessionsAgree.of_same {room : LinkNo → Nat} {s t : State} (h : SessionsAgree room s)
    (sessions : t.sessions = s.sessions) (records : t.records = s.records) (groups : t.groups = s.groups)
    (profile : t.profile = s.profile) (links : t.links = s.links) : SessionsAgree room t :=
  h.of_links (fun m => by rw [State.session, sessions]; exact ⟨rfl, rfl⟩) records groups profile
    fun m => by rw [State.link, links]; exact ⟨rfl, le_rfl⟩

theorem quiet_putLink {l : LinkNo} {u : LinkUnit} {s : State} (reserved : u.reserved = (s.link l).reserved)
    (queued : u.queued ≤ (s.link l).queued) : Quiet s (s.putLink l u) where
  sessions _ := ⟨rfl, rfl⟩
  records := rfl
  groups := rfl
  profile := rfl
  links m := by
    rw [State.link_putLink]
    split
    · rename_i same; subst same; exact ⟨reserved, queued⟩
    · exact ⟨rfl, le_rfl⟩

theorem quiet_countFault (l : LinkNo) (f : LinkFault) (s : State) : Quiet s (countFault l f s) := quiet_putLink rfl le_rfl

theorem quiet_runOutGapTimer (l : LinkNo) (s : State) : Quiet s (runOutGapTimer l s) :=
  (quiet_countFault l .gap s).trans (quiet_putLink rfl le_rfl)

theorem quiet_lineReturned (l : LinkNo) (s : State) : Quiet s (lineReturned l s) := by
  unfold lineReturned
  split
  · exact .refl s
  · exact .refl s
  · split
    · exact quiet_runOutGapTimer l s
    · exact quiet_putLink rfl le_rfl

theorem quiet_runGapTimer (l : LinkNo) (n : Nat) (s : State) : Quiet s (runGapTimer l n s) := by
  unfold runGapTimer
  split
  · exact .refl s
  · split
    · exact quiet_runOutGapTimer l s
    · exact quiet_putLink rfl le_rfl
  · exact quiet_putLink rfl le_rfl

theorem quiet_finishEntry {l : LinkNo} {e : OutEntry} {rest : List OutEntry} {s : State}
    (head : (s.link l).outbound = e :: rest) : Quiet s (finishEntry l e rest s) := by
  have shorter : rest.length ≤ (s.link l).queued := by
    rw [LinkUnit.queued, head]; exact Nat.le_succ _
  rw [finishEntry_eq]
  split
  · obtain ⟨reserved, queued⟩ := account_adopted (s.settings l) { s.link l with outbound := rest, transmitter := .idle }
    exact quiet_putLink reserved (queued.le.trans shorter)
  · exact quiet_putLink rfl shorter

theorem quiet_runTransmitter (l : LinkNo) (n : Nat) (s : State) : Quiet s (runTransmitter l n s) := by
  unfold runTransmitter
  split
  · exact .refl s
  · exact quiet_putLink rfl le_rfl
  · split
    · split
      · exact quiet_finishEntry ‹_›
      · exact quiet_putLink rfl le_rfl
    · exact quiet_putLink rfl le_rfl

theorem quiet_linePeriod (s : State) : Quiet s (linePeriod s) :=
  foldl_keeps (P := Quiet s) linkPeriod
    (fun t l quiet => (quiet.trans (quiet_runGapTimer l 1 t)).trans (quiet_runTransmitter l 1 _)) _ (.refl s)

theorem quiet_renewLease (l : LinkNo) (s : State) : Quiet s (renewLease l s) := by
  have records : (renewLease l s).records = s.records := records_of_pool (pool_renewLease l s)
  have states (m : LinkNo) : ((renewLease l s).session m).isOpen = (s.session m).isOpen := by
    rcases renewLease_session l m s with same | ⟨before, after⟩
    · exact isOpen_of_state same
    · exact after.trans before.symm
  unfold renewLease at states records ⊢
  split
  · rename_i d e state
    rw [state] at states
    exact ⟨fun m => ⟨tags_putSessState .., states m⟩, rfl, rfl, rfl, fun _ => ⟨rfl, le_rfl⟩⟩
  · exact .refl s
  · exact .refl s

theorem quiet_admitFrame (l : LinkNo) (f : Frame) (s : State) : Quiet s (admitFrame l f s) := by
  unfold admitFrame
  dsimp only
  split
  · exact (quiet_renewLease l s).trans (quiet_putLink rfl le_rfl)
  · exact (quiet_renewLease l s).trans (quiet_countFault l .discard _)

theorem quiet_rxEffect (l : LinkNo) (e : RxEvent) (s : State) : Quiet s (rxEffect l e s) := by
  cases e with
  | quiet => exact .refl s
  | badLength => exact quiet_countFault l .length s
  | complete n bytes c d poisoned =>
    unfold rxEffect
    dsimp only
    split
    · exact .refl s
    · split
      · exact quiet_admitFrame l _ s
      · exact quiet_countFault l .check s

theorem quiet_endCharacter (l : LinkNo) (v : Byte) (faulty : Bool) (s : State) : Quiet s (endCharacter l v faulty s) := by
  refine Quiet.trans ?_ (quiet_rxEffect l _ _)
  exact quiet_putLink rfl le_rfl

/-! ### Events -/

theorem SessionsAgree.replied {l : LinkNo} {f : Frame} {s t : State} (h : SessionsAgree (fun _ => 0) s)
    (taken : TakesFrame l f s t) (e : OutEntry) : SessionsAgree (fun _ => 0) (queueFree l e t) := by
  refine ((h.takesFrame taken).mono fun m => ?_).reply e
  unfold roomFor
  split
  · exact one_le_neededEntries f.kind
  · exact le_rfl

theorem sessionsAgree_expireArrival {g : GroupNo} {a : Arrival} {s : State} (h : SessionsAgree (fun _ => 0) s)
    (listed : a ∈ (s.group g).arrivals) : SessionsAgree (fun _ => 0) (expireArrival g a s) :=
  h.upheld (upholds_expireArrival listed) (works_expireArrival g a s).state

theorem sessionsAgree_expireWait {s : State} (h : SessionsAgree (fun _ => 0) s) (i : RecNo) :
    SessionsAgree (fun _ => 0) (expireWait i s) := h.upheld (upholds_expireWait i s) (works_expireWait i s).state

theorem sessionsAgree_expireHold {i : RecNo} {d : Instant} {s : State} (h : SessionsAgree (fun _ => 0) s)
    (armed : (s.record i).state.holdDeadline = some d) : SessionsAgree (fun _ => 0) (expireHold i s) :=
  h.upheld (upholds_expireHold armed) (works_expireHold i s).state

theorem sessionsAgree_event {c : Instr} {s t : State} (event : Event s c t) (h : SessionsAgree (fun _ => 0) s) :
    SessionsAgree (fun _ => 0) t := by
  cases event with
  | lease l d armed due high => exact h.lapse l .lapsed (Nat.zero_le _)
  | lockWait i _ => exact sessionsAgree_expireWait h i
  | convertWait i _ => exact sessionsAgree_expireWait h i
  | watchWait i _ => exact sessionsAgree_expireWait h i
  | hold i d armed => exact sessionsAgree_expireHold h armed
  | arrival g a listed => exact sessionsAgree_expireArrival h listed
  | gap l _ => exact h.quiet ((quiet_lineReturned l s).trans (quiet_runGapTimer l _ _))
  | character _ l v _ _ => exact h.quiet (quiet_endCharacter l v false s)
  | stopBit l v _ => exact h.quiet ((quiet_countFault l .framing s).trans (quiet_endCharacter l v true _))
  | breakEnd l _ => exact h.break l
  | transmitStart l e rest head => exact h.quiet (quiet_putLink rfl le_rfl)
  | transmitted l => exact h.quiet (quiet_runTransmitter l _ s)
  | startEdge l => exact (h.quiet (quiet_lineReturned l s)).quiet (quiet_putLink rfl le_rfl)
  | unknownKind l kind tag body u taken => exact h.replied taken _

theorem sessionsAgree_deliverOverdue (later : Instant) {s : State} (h : SessionsAgree (fun _ => 0) s) :
    SessionsAgree (fun _ => 0) (deliverOverdue later s) := by
  refine deliverOverdue_keeps (P := SessionsAgree fun _ => 0) later (fun t l _ h => h.lapse l .lapsed (Nat.zero_le _))
    (fun t i _ h => sessionsAgree_expireWait h i) (fun t i armed h => ?_)
    (fun t g a listed _ h => sessionsAgree_expireArrival h listed) h
  obtain ⟨d, armed, -⟩ := overdue_armed armed
  exact sessionsAgree_expireHold h armed

/-! ### Requests -/

theorem free_of_lowestFree {s : State} {i : RecNo} (free : s.lowestFree = some i) : (s.record i).state = .free :=
  ((lowestFree_eq_some_iff s i).1 free).1

/-- What an accepted request leaves before its reply, which has a free entry to go to. -/
theorem sessionsAgree_accepted {l : LinkNo} {tag : Byte} {body : List Byte} {s v : State} {k : ReqKind} {m : Message}
    {adopts : Bool} (accepted : Accepted l tag body s k m adopts v) (pass : PassesChecks k l tag body s)
    (setup : SetupIsEmpty s) (profile : ProfileInRange s) (h : SessionsAgree (roomFor l (neededEntries k.code)) s) :
    SessionsAgree (roomFor l 1) v := by
  have roomy : SessionsAgree (roomFor l 1) s := h.mono fun m => by
    unfold roomFor
    split
    · exact one_le_neededEntries _
    · exact le_rfl
  have states (other : ¬ (k = .openSession ∨ k = .closeSession ∨ k = .restart ∨ k = .evict)) :=
    accepted.state_of_other other
  obtain ⟨nonzero, -, -, needsSetup, -, needsSession, fresh, room⟩ := pass
  have opening (needs : k.needsSession = true) (opens : k.opensTag = true) (ref : TagRef) :
      ∀ z ∈ some ({ tag := tag, ref := ref } : OpenTag),
        z.tag ≠ 0 ∧ (∀ x ∈ (s.session l).tags, x.tag ≠ z.tag) ∧ (s.session l).tags.length < 16 :=
    fun z same => Option.some.inj same ▸ ⟨nonzero, fresh, room opens⟩
  have inSetup (needs : k.needsSetup = true) (g : GroupNo) : (s.group g).arrivals = [] := by
    obtain ⟨-, empty⟩ := setup
    obtain ⟨-, -, arrivals⟩ := empty (needsSetup needs)
    exact arrivals g
  cases accepted with
  | opens closed => exact SessionsAgree.opens h closed
  | closesLapsed lapsed =>
    refine roomy.of_links (fun m => ⟨tags_putSessState .., ?_⟩) rfl rfl rfl fun _ => ⟨rfl, le_rfl⟩
    rw [session_putSessState]
    split
    · rename_i same; subst same; exact (not_isOpen_of_lapsed lapsed).symm
    · rfl
  | closesOpen is_open => exact roomy.closes is_open
  | renews => exact roomy
  | linkStatus => exact roomy.quiet (quiet_putLink rfl le_rfl)
  | partStatus => exact roomy
  | holds q m w i fields admits free quota unspent open_ =>
    exact (admitted_holds (free_of_lowestFree free)).agree (states (by decide)) (needsSession rfl) h
      fun z none_ => by cases none_
  | waits q m w i fields admits free quota room blocked =>
    exact (admitted_waits (free_of_lowestFree free)).agree (states (by decide)) (needsSession rfl) h (opening rfl rfl _)
  | releases i token named holding =>
    obtain ⟨o, closed, concluded⟩ := concluded_freeHolding holding
    exact roomy.upheld (concluded.upholds.trans (upholds_grantScan _)) (states (by decide))
  | downgrades i o b token hold named mode state =>
    have concluded := concluded_share (n := .shared) (token' := token) (t := s.putState i (.held o b .shared token hold))
      state rfl rfl rfl rfl rfl
    exact roomy.upheld (concluded.upholds.trans (upholds_grantScan _)) (states (by decide))
  | upgrades i o b token hold named mode state alone unspent =>
    have concluded := concluded_share (n := .exclusive) (token' := s.nextToken)
      (t := issueToken (s.putState i (.held o b .exclusive s.nextToken hold))) state rfl rfl rfl rfl rfl
    exact roomy.upheld concluded.upholds (states (by decide))
  | converts i o b token hold named mode state others settled =>
    obtain ⟨-, owner, -⟩ := (named_eq_some_iff s l _ i).1 named
    rw [state] at owner
    cases owner
    exact (admitted_converts state).agree (states (by decide)) (needsSession rfl) h (opening rfl rfl _)
  | cancels x found =>
    obtain ⟨account, arrival⟩ := roomy.1 l
    have listed : x ∈ (s.session l).tags := List.mem_of_find?_eq_some found
    obtain ⟨upholds, -⟩ := cancelEntry_keeps listed account arrival
    exact roomy.upheld (upholds.trans (upholds_scanAfterCancel x.ref _)) (states (by decide))
  | findsFree => exact roomy
  | watches q w i fields admits free quota room held =>
    exact (admitted_watches (free_of_lowestFree free)).agree (states (by decide)) (needsSession rfl) h (opening rfl rfl _)
  | queries b => exact roomy
  | completes g group member fresh complete => exact roomy.upheld (upholds_passRound g _ s) (states (by decide))
  | arrives g group member absent incomplete list appended =>
    exact SessionsAgree.arrives h profile (needsSession rfl) ⟨nonzero, fresh, room rfl⟩ member absent incomplete list appended
  | setsLink q n fields good link adopts carried =>
    refine roomy.calm (fun m => ?_) (fun i => ?_) (fun m => ?_) fun g => ?_
    · rw [writeLink_eq]; exact ⟨rfl, rfl⟩
    · rw [writeLink_eq]; rfl
    · obtain ⟨reserved, queued⟩ := account_writeLink n q.settings s m
      exact ⟨reserved, Nat.add_le_add_right queued _⟩
    · rw [writeLink_eq]; exact ⟨rfl, .inl rfl⟩
  | setsWindow n k w =>
    exact roomy.calm (fun _ => ⟨rfl, rfl⟩) (fun _ => rfl) (fun _ => ⟨rfl, le_rfl⟩) fun _ => ⟨rfl, .inl rfl⟩
  | setsGroup g d range =>
    exact roomy.calm (fun _ => ⟨rfl, rfl⟩) (fun _ => rfl) (fun _ => ⟨rfl, le_rfl⟩) fun g => ⟨rfl, .inr (inSetup rfl g)⟩
  | setsFloor => exact roomy.calm (fun _ => ⟨rfl, rfl⟩) (fun _ => rfl) (fun _ => ⟨rfl, le_rfl⟩) fun _ => ⟨rfl, .inl rfl⟩
  | starts => exact roomy.calm (fun _ => ⟨rfl, rfl⟩) (fun _ => rfl) (fun _ => ⟨rfl, le_rfl⟩) fun _ => ⟨rfl, .inl rfl⟩
  | restarts => exact roomy.restart
  | reads m item => exact roomy
  | evicts n target is_open other =>
    refine roomy.lapse n .evicted ?_
    unfold roomFor
    split
    · decide
    · exact Nat.zero_le _

/-! ### Every step -/

theorem sessionsAgree_reset {t : State} (sessions : t.sessions = State.reset.sessions)
    (links : t.links = State.reset.links) (groups : t.groups = State.reset.groups)
    (free : ∀ i, (t.record i).state = .free) : SessionsAgree (fun _ => 0) t := by
  have session (m : LinkNo) : t.session m = Session.atReset := by
    simp [State.session, sessions, State.reset, Vector.get_eq_getElem]
  have link (m : LinkNo) : t.link m = LinkUnit.atReset := by
    simp [State.link, links, State.reset, Vector.get_eq_getElem]
  have group (g : GroupNo) : t.group g = Group.atReset := by
    simp [State.group, groups, State.reset, Vector.get_eq_getElem]
  refine sessionsAgree_empty (fun m => ?_) (fun m => ?_) free (fun m => ?_) fun g => ?_
  · rw [session]; rfl
  · rw [session]; rfl
  · rw [link]; exact ⟨rfl, Nat.zero_le _⟩
  · rw [group]; rfl

theorem SessionsAgree.latchStraps (straps : Straps) {s : State} (h : SessionsAgree (fun _ => 0) s) :
    SessionsAgree (fun _ => 0) (latchStraps straps s) := by
  unfold Machine.latchStraps
  dsimp only
  split
  · exact h.of_same rfl rfl rfl rfl rfl
  · exact h.of_same rfl rfl rfl rfl rfl

theorem sessionsAgree_atInstant (now : Instant) {s : State} (h : SessionsAgree (fun _ => 0) s) :
    SessionsAgree (fun _ => 0) (s.atInstant now) := h.of_same rfl rfl rfl rfl rfl

/-- The agreement is kept by every event, request, reset and passing of time. -/
theorem keptBeside_sessionsAgree :
    KeptBeside (fun s => SetupIsEmpty s ∧ ProfileInRange s) (SessionsAgree fun _ => 0) where
  event event _ _ h := sessionsAgree_event event h
  refused _ _ _ taken _ h := h.replied taken _
  accepted taken pass accepted side _ h := by
    obtain ⟨setup, profile⟩ := side
    exact (sessionsAgree_accepted accepted pass (kept_setupIsEmpty.move (.take _ _ taken) setup)
      (kept_profileInRange.move (.take _ _ taken) profile) (h.takesFrame taken)).reply _
  tick _ _ h := sessionsAgree_atInstant _ (sessionsAgree_deliverOverdue _ h)
  period _ _ h := sessionsAgree_atInstant _ ((sessionsAgree_deliverOverdue _ h).quiet (quiet_linePeriod _))
  queue _ h := h.of_same rfl rfl rfl rfl rfl
  power straps := by
    refine SessionsAgree.latchStraps straps ?_
    exact sessionsAgree_reset rfl rfl rfl fun i => congrArg Record.state (record_reset i)
  falling _ := sessionsAgree_reset rfl rfl rfl (state_resetValues _)
  rising straps _ h := SessionsAgree.latchStraps straps (h.of_same rfl rfl rfl rfl rfl)

theorem kept_setupAndProfile : Kept fun s => SetupIsEmpty s ∧ ProfileInRange s where
  move m h := ⟨kept_setupIsEmpty.move m h.1, kept_profileInRange.move m h.2⟩
  instant now h := ⟨kept_setupIsEmpty.instant now h.1, kept_profileInRange.instant now h.2⟩
  queue waiting h := ⟨kept_setupIsEmpty.queue waiting h.1, kept_profileInRange.queue waiting h.2⟩
  power straps h := ⟨kept_setupIsEmpty.power straps h.1, kept_profileInRange.power straps h.2⟩
  falling h := ⟨kept_setupIsEmpty.falling h.1, kept_profileInRange.falling h.2⟩
  rising straps low h := ⟨kept_setupIsEmpty.rising straps low h.1, kept_profileInRange.rising straps low h.2⟩

/-- Settles O58: each operation on a record, a round or a session moves its link's tags, records and reservations together, and
a request sets aside no more than the dispatcher has found free. -/
theorem stepKeepsSessionsSound : Obligations.StepKeepsSessionsSound := by
  intro s t h next
  obtain ⟨side, agree⟩ := (sessionsSound_iff s).1 h
  exact (sessionsSound_iff t).2
    ⟨kept_setupAndProfile.step next side, keptBeside_sessionsAgree.step kept_setupAndProfile next side agree⟩

end Sys2Proof.Machine
end


section
/-! PROOFS. The state after power-on (R20, R108, R161). -/

namespace Sys2Proof.Machine

open Sys2Proof.Safety

/-- Settles O53: after power-on every record is FREE, every session CLOSED, every list empty and every setting the default. -/
theorem resetMeetsInvariants : Obligations.ResetMeetsInvariants := by
  have free (i : RecNo) : (State.reset.record i).state = .free := congrArg Record.state (record_reset i)
  obtain ⟨lists, counts, limits, queues⟩ := lists_reset free rfl rfl rfl rfl rfl
  have profile : ProfileInRange State.reset := profileInRange_atReset State.reset rfl
  have setup : SetupIsEmpty State.reset := setupIsEmpty_cleared (fun _ => rfl) rfl rfl free
  exact ⟨holdingsCompatible_empty free, tokensSound_empty free, ⟨profile, blocksWellFormed_empty free⟩,
    ⟨setup, profile, lists, counts, limits, queues⟩,
    (sessionsSound_iff State.reset).2 ⟨⟨setup, profile⟩, sessionsAgree_reset rfl rfl rfl free⟩,
    ⟨lists, nothingUnblocked_empty free⟩, deadlinesInTime_reset (lease_atReset rfl) rfl rfl free⟩

end Sys2Proof.Machine
end


section
/-! PROOFS. What a grant scan does to each record and tells each link, whatever the lists hold (R43 to R49, R82). -/

namespace Sys2Proof.Machine

open Sys2Proof.Safety

/-! ### The effect of a scan -/

/-- Each record stays or makes a move of the scan, and each link is told of its records that move and of nothing else. -/
structure ScanEffect (s t : State) : Prop where
  control : SameControl s t
  groups : t.groups = s.groups
  tokens : s.tokens ≤ t.tokens
  records : ∀ i, StaysOr (ScanMove s t) (s.record i) (t.record i)
  notices : ∀ m, ∃ scan, ScanNotices s t m scan ∧ QueuedFor s t m scan

theorem scanMove_mono {s t t' : State} {x y : RecState} (h : ScanMove s t x y) (tokens : t.tokens ≤ t'.tokens) :
    ScanMove s t' x y := by
  cases h with
  | grantWaiter o b m g d h k above within => exact .grantWaiter o b m g d h k above (BitVec.le_trans within tokens)
  | grantConverter o b k₀ g d h k above within => exact .grantConverter o b k₀ g d h k above (BitVec.le_trans within tokens)
  | fire o b g d => exact .fire o b g d

theorem staysOr_imp {p q : RecState → RecState → Prop} {a b : Record} (h : StaysOr p a b) (imp : ∀ x y, p x y → q x y) :
    StaysOr q a b := h.imp_right fun ⟨move, reuse⟩ => ⟨imp _ _ move, reuse⟩

/-- A record that the scan has moved is FREE or HELD. -/
theorem waitsUnder_of_scanMove {s t : State} {x y : RecState} (h : ScanMove s t x y) (i : RecNo) :
    waitsUnder i y = none := by
  cases h <;> rfl

theorem ScanEffect.refl (s : State) : ScanEffect s s where
  control := sameControl_refl s
  groups := rfl
  tokens := BitVec.le_refl _
  records _ := .inl rfl
  notices m := ⟨[], ⟨fun _ none_ => absurd none_ List.not_mem_nil, fun _ _ moved => absurd rfl moved⟩, queuedFor_refl s m⟩

/-- A record that waits has not been moved yet. -/
theorem ScanEffect.record_of_waits {s t : State} (h : ScanEffect s t) {i : RecNo} {o : LinkNo} {x : OpenTag}
    (waits : waitsUnder i (t.record i).state = some (o, x)) : t.record i = s.record i := by
  rcases h.records i with same | ⟨move, -⟩
  · exact same
  · rw [waitsUnder_of_scanMove move] at waits
    cases waits

/-- A notice about a record that no longer waits stands when another record moves. -/
theorem scanNotice_of_record {s t t' : State} {m : LinkNo} {j : RecNo} {e : OutEntry} (h : ScanNotice s t m j e)
    (same : t'.record j = t.record j) : ScanNotice s t' m j e := by
  obtain ⟨x, waits, tag, adopts, told⟩ := h
  refine ⟨x, waits, tag, adopts, ?_⟩
  rw [same]
  exact told

theorem scanNotice_silent {s t : State} {m : LinkNo} {j : RecNo} {e : OutEntry} (h : ScanNotice s t m j e) :
    waitsUnder j (t.record j).state = none := by
  obtain ⟨x, -, -, -, ⟨-, free⟩ | ⟨o, b, n, token, hold, held, -⟩⟩ := h
  · rw [free]; rfl
  · rw [held]; rfl

/-- One more record moves, and its link is told. -/
theorem ScanEffect.move {s t t' : State} (h : ScanEffect s t) {i : RecNo} {o : LinkNo} {x : OpenTag} {r : Record}
    {e : OutEntry} (waits : waitsUnder i (t.record i).state = some (o, x)) (tokens : t.tokens ≤ t'.tokens)
    (record : ∀ j, t'.record j = if i = j then r else t.record j)
    (moves : ScanMove s t' (s.record i).state r.state)
    (reuse : r.reuse = if r.state = .free then (s.record i).reuse + 1 else (s.record i).reuse)
    (notice : ScanNotice s t' o i e) (closes : Closes o e t t') (control : SameControl t t')
    (groups : t'.groups = t.groups) : ScanEffect s t' where
  control := sameControl_trans h.control control
  groups := groups.trans h.groups
  tokens := BitVec.le_trans h.tokens tokens
  records j := by
    rw [record]
    split
    · rename_i same; subst same; exact .inr ⟨moves, reuse⟩
    · exact staysOr_imp (h.records j) fun _ _ move => scanMove_mono move tokens
  notices m := by
    obtain ⟨scan, ⟨about, complete⟩, queued⟩ := h.notices m
    have other {j : RecNo} {f : OutEntry} (old : ScanNotice s t m j f) : ScanNotice s t' m j f := by
      refine scanNotice_of_record old ((record j).trans (if_neg ?_))
      rintro rfl
      rw [scanNotice_silent old] at waits
      cases waits
    refine ⟨_, ⟨fun f listed => ?_, fun j owner moved => ?_⟩, closes.queuedFor m queued⟩
    · rcases List.mem_append.1 listed with old | new
      · obtain ⟨j, told⟩ := about f old
        exact ⟨j, other told⟩
      · split at new
        · rename_i same
          subst same
          rw [List.mem_singleton.1 new]
          exact ⟨i, notice⟩
        · cases new
    · by_cases here : i = j
      · subst here
        have own : o = m := by
          rw [← h.record_of_waits waits] at owner
          exact Option.some.inj ((owner_of_waitsUnder waits).symm.trans owner)
        subst own
        exact ⟨e, by simp, notice⟩
      · rw [record, if_neg here] at moved
        obtain ⟨f, listed, told⟩ := complete j owner moved
        exact ⟨f, List.mem_append_left _ listed, other told⟩

theorem ScanEffect.tokens_lt_next {s t : State} (h : ScanEffect s t) (unspent : t.tokensSpent = false) :
    s.tokens < t.nextToken := by
  have before := h.tokens
  have next := lt_nextToken t unspent
  bv_omega

theorem armHold_eq_holdArmed {s t : State} (control : SameControl s t) (limit : Option Nat) :
    t.armHold limit = holdArmed s limit := by
  obtain ⟨-, -, -, -, uptime, clkin, -⟩ := control
  unfold State.armHold State.due holdArmed
  rw [uptime, clkin]

theorem ScanEffect.grantConverter {s t : State} (h : ScanEffect s t) {i : RecNo} {o : LinkNo} {b : Block} {token : Word}
    {tag : Byte} {w : Option Instant} {hold : Option Hold} (state : (t.record i).state = .converting o b token tag w hold)
    (unspent : t.tokensSpent = false) : ScanEffect s (grantConverter i o b tag hold t) := by
  have waits : waitsUnder i (t.record i).state = some (o, { tag := tag, ref := .convert i }) := by rw [state]; rfl
  have old := h.record_of_waits waits
  have handle : t.handle i = s.handle i := by rw [State.handle, State.handle, old]
  have record (j : RecNo) : (Machine.grantConverter i o b tag hold t).record j =
      if i = j then { reuse := (t.record i).reuse, state := .held o b .exclusive t.nextToken hold } else t.record j := by
    rw [grantConverter_eq]; exact Vector.get_set_fin ..
  refine h.move (e := { tag := tag, msg := .granted (s.handle i) t.nextToken .exclusive, adopts := false }) waits
    (BitVec.le_of_lt (lt_nextToken t unspent)) record ?_ ?_ ⟨_, old ▸ waits, rfl, rfl, .inr ⟨o, b, .exclusive, t.nextToken, hold, ?_, rfl⟩⟩
    ?_ ⟨rfl, rfl, rfl, rfl, rfl, rfl, rfl, rfl, rfl⟩ rfl
  · rw [← old, state]
    exact .grantConverter o b token tag w hold _ (h.tokens_lt_next unspent) (BitVec.le_refl _)
  · rw [if_neg (by simp), old]
  · rw [record, if_pos rfl]
  · rw [← handle]
    exact (closes_closeTag o tag _ _).congr rfl (fun _ => ⟨rfl, rfl⟩) rfl fun _ => ⟨rfl, rfl⟩

theorem ScanEffect.grantWaiter {s t : State} (h : ScanEffect s t) {i : RecNo} {o : LinkNo} {b : Block} {m : Mode}
    {tag : Byte} {w : Option Instant} {limit : Option Nat} (state : (t.record i).state = .waiting o b m tag w limit)
    (unspent : t.tokensSpent = false) : ScanEffect s (grantWaiter i o b m tag limit t) := by
  have waits : waitsUnder i (t.record i).state = some (o, { tag := tag, ref := .lockWait i }) := by rw [state]; rfl
  have old := h.record_of_waits waits
  have handle : t.handle i = s.handle i := by rw [State.handle, State.handle, old]
  have record (j : RecNo) : (Machine.grantWaiter i o b m tag limit t).record j =
      if i = j then { reuse := (t.record i).reuse, state := .held o b m t.nextToken (holdArmed s limit) }
      else t.record j := by
    rw [grantWaiter_eq, ← armHold_eq_holdArmed h.control]; exact Vector.get_set_fin ..
  refine h.move (e := { tag := tag, msg := .granted (s.handle i) t.nextToken m, adopts := false }) waits
    (BitVec.le_of_lt (lt_nextToken t unspent)) record ?_ ?_ ⟨_, old ▸ waits, rfl, rfl, .inr ⟨o, b, m, t.nextToken, holdArmed s limit, ?_, rfl⟩⟩
    ?_ ⟨rfl, rfl, rfl, rfl, rfl, rfl, rfl, rfl, rfl⟩ rfl
  · rw [← old, state]
    exact .grantWaiter o b m tag w limit _ (h.tokens_lt_next unspent) (BitVec.le_refl _)
  · rw [if_neg (by simp), old]
  · rw [record, if_pos rfl]
  · rw [← handle]
    exact (closes_closeTag o tag _ _).congr rfl (fun _ => ⟨rfl, rfl⟩) rfl fun _ => ⟨rfl, rfl⟩

theorem ScanEffect.fireWatch {s t : State} (h : ScanEffect s t) {i : RecNo} {o : LinkNo} {b : Block} {tag : Byte}
    {w : Option Instant} (state : (t.record i).state = .watching o b tag w) : ScanEffect s (fireWatch i o tag t) := by
  have waits : waitsUnder i (t.record i).state = some (o, { tag := tag, ref := .watch i }) := by rw [state]; rfl
  have old := h.record_of_waits waits
  have handle : t.handle i = s.handle i := by rw [State.handle, State.handle, old]
  have fire := fireWatch_eq i o b tag w t state
  have record (j : RecNo) : (Machine.fireWatch i o tag t).record j = if i = j then freed (t.record i) else t.record j := by
    rw [fire]; exact Vector.get_set_fin ..
  refine h.move (e := { tag := tag, msg := .fired (s.handle i), adopts := false }) waits (by rw [fire]; exact BitVec.le_refl _) record ?_ ?_
    ⟨_, old ▸ waits, rfl, rfl, .inl ⟨rfl, ?_⟩⟩ ?_ ?_ (by rw [fire])
  · rw [← old, state]
    exact .fire o b tag w
  · rw [old]; exact (if_pos rfl).symm
  · rw [record, if_pos rfl]; rfl
  · rw [fire, ← handle]
    refine (closes_closeTag o tag (.fired (t.handle i)) t).congr rfl (fun _ => ⟨rfl, rfl⟩) rfl fun m => ?_
    by_cases own : o = m <;> simp [closeTag_eq, State.session, Vector.get_set_fin, own]
  · rw [fire]; exact ⟨rfl, rfl, rfl, rfl, rfl, rfl, rfl, rfl, rfl⟩

theorem grantScan_effect (s : State) : ScanEffect s (grantScan s) :=
  grantScan_induct (ScanEffect s ·) (fun _ _ _ _ _ _ _ _ h state unspent _ => h.grantConverter state unspent)
    (fun _ _ _ _ _ _ _ _ h state unspent _ => h.grantWaiter state unspent)
    (fun _ _ _ _ _ _ h state _ => h.fireWatch state) s (.refl s)

/-! ### A link without records that wait -/

/-- A link is told nothing of a scan when none of its records waits. -/
theorem scanNotices_eq_nil {s t : State} {m : LinkNo} {scan : List OutEntry} (h : ScanNotices s t m scan)
    (idle : ∀ i x, waitsUnder i (s.record i).state ≠ some (m, x)) : scan = [] := by
  refine List.eq_nil_iff_forall_not_mem.2 fun e listed => ?_
  obtain ⟨i, x, waits, -⟩ := h.1 e listed
  exact idle i x waits

theorem queuedFor_nil {s t : State} {m : LinkNo} (h : QueuedFor s t m []) :
    t.link m = s.link m ∧ (t.session m).state = (s.session m).state ∧ (t.session m).tags = (s.session m).tags := by
  obtain ⟨link, state, tags⟩ := h
  refine ⟨by rw [link]; simp, state, tags.trans ?_⟩
  simp

theorem ScanEffect.untold {s t : State} (h : ScanEffect s t) {m : LinkNo}
    (idle : ∀ i x, waitsUnder i (s.record i).state ≠ some (m, x)) :
    t.link m = s.link m ∧ (t.session m).state = (s.session m).state ∧ (t.session m).tags = (s.session m).tags := by
  obtain ⟨scan, notices, queued⟩ := h.notices m
  rw [scanNotices_eq_nil notices idle] at queued
  exact queuedFor_nil queued

/-- One event's notices after another's. -/
theorem queuedFor_trans {s t u : State} {m : LinkNo} {first second : List OutEntry} (h : QueuedFor s t m first)
    (k : QueuedFor t u m second) : QueuedFor s u m (first ++ second) := by
  obtain ⟨link, state, tags⟩ := h
  obtain ⟨link', state', tags'⟩ := k
  refine ⟨?_, state'.trans state, ?_⟩
  · rw [link', link]
    simp [Nat.sub_sub]
  · rw [tags', tags, List.filter_filter]
    refine List.filter_congr fun x _ => ?_
    rw [Bool.eq_iff_iff]
    simp only [Bool.and_eq_true, decide_eq_true_eq, List.mem_append, or_imp, forall_and]
    exact and_comm

/-- An event that leaves the link unit, the tags and the session's state alone tells nothing. -/
theorem queuedFor_of_same {s t : State} {m : LinkNo} (link : t.link m = s.link m)
    (state : (t.session m).state = (s.session m).state) (tags : (t.session m).tags = (s.session m).tags) :
    QueuedFor s t m [] := by
  obtain ⟨-, -, same⟩ := queuedFor_refl s m
  exact ⟨by rw [link]; simp, state, tags.trans same⟩

end Sys2Proof.Machine
end


section
/-! PROOFS. What a failure end of a session does: its records freed, the scan, its groups' rounds broken (R74, R75, R103). -/

namespace Sys2Proof.Machine

open Sys2Proof.Safety

/-! ### The notices of a round -/

/-- What the notices of a round queue for one link: those of its own entries, in order. -/
theorem queuedFor_notifyArrivals (notice : Nat → Message) (m : LinkNo) (rank : Nat) (list : List Arrival) (s : State) :
    QueuedFor s (notifyArrivals notice rank list s) m (((list.zipIdx rank).filter (·.1.link = m)).map fun x =>
      { tag := x.1.tag, msg := notice x.2, adopts := false }) := by
  induction list generalizing rank s with
  | nil => exact queuedFor_refl s m
  | cons a rest ih =>
    have first := (closes_closeTag a.link a.tag (notice rank) s).queuedFor m (queuedFor_refl s m)
    have both := queuedFor_trans first (ih (rank + 1) (closeTag a.link a.tag (notice rank) s))
    rw [List.zipIdx_cons, List.filter_cons]
    by_cases own : a.link = m
    · rw [if_pos own] at both
      rw [if_pos (by exact decide_eq_true own)]
      exact both
    · rw [if_neg own] at both
      rw [if_neg (by simpa using own)]
      exact both

theorem map_filter_zipIdx (list : List Arrival) (rank : Nat) (p : Arrival → Bool) (f : Arrival → OutEntry) :
    ((list.zipIdx rank).filter (fun x => p x.1)).map (fun x => f x.1) = (list.filter p).map f := by
  induction list generalizing rank with
  | nil => rfl
  | cons a rest ih =>
    rw [List.zipIdx_cons, List.filter_cons, List.filter_cons]
    by_cases here : p a = true
    · rw [if_pos here, if_pos here, List.map_cons, List.map_cons, ih]
    · rw [if_neg here, if_neg here, ih]

/-- The same, when every entry is told the same. -/
theorem queuedFor_notifyAlike (msg : Message) (m : LinkNo) (list : List Arrival) (s : State) :
    QueuedFor s (notifyArrivals (fun _ => msg) 1 list s) m ((list.filter (·.link = m)).map fun a =>
      { tag := a.tag, msg := msg, adopts := false }) := by
  rw [← map_filter_zipIdx list 1 (fun a => decide (a.link = m)) fun a => { tag := a.tag, msg := msg, adopts := false }]
  exact queuedFor_notifyArrivals (fun _ => msg) m 1 list s

/-- What a pass over the groups queues for one link, when at each group it looks at that group alone. -/
theorem queuedFor_foldl_groups {f : State → GroupNo → State} {m : LinkNo} {notices : State → GroupNo → List OutEntry}
    (one : ∀ t g, QueuedFor t (f t g) m (notices t g))
    (other : ∀ t g h, g ≠ h → notices (f t g) h = notices t h) (groups : List GroupNo) (distinct : groups.Nodup) (s : State) :
    QueuedFor s (groups.foldl f s) m (groups.flatMap (notices s)) := by
  induction groups generalizing s with
  | nil => exact queuedFor_refl s m
  | cons g rest ih =>
    obtain ⟨first, distinct⟩ := List.nodup_cons.1 distinct
    have same : rest.flatMap (notices (f s g)) = rest.flatMap (notices s) := by
      rw [List.flatMap_def, List.flatMap_def]
      refine congrArg List.flatten (List.map_congr_left fun h listed => other s g h ?_)
      rintro rfl
      exact first listed
    have both := queuedFor_trans (one s g) (ih distinct (f s g))
    rw [same] at both
    exact both

/-! ### The departure -/

/-- The BROKEN notices of one group (R103). -/
def brokenOf (n m : LinkNo) (s : State) (g : GroupNo) : List OutEntry :=
  if (s.groupDef g).has n = true then
    ((s.group g).arrivals.filter (fun a => a.link ≠ n ∧ a.link = m)).map fun a =>
      { tag := a.tag, msg := .broken g (s.group g).generation .memberLost, adopts := false }
  else []

theorem queuedFor_departGroup (n m : LinkNo) (s : State) (g : GroupNo) :
    QueuedFor s (departGroup n s g) m (brokenOf n m s g) := by
  unfold departGroup brokenOf
  by_cases member : (s.groupDef g).has n = true
  · by_cases empty : (s.group g).arrivals = []
    · have quiet : ((s.groupDef g).has n && (s.group g).gathering) = false := by simp [Group.gathering, empty]
      rw [quiet, if_pos member, empty]
      exact queuedFor_refl s m
    · have gathers : ((s.groupDef g).has n && (s.group g).gathering) = true := by simp [Group.gathering, empty, member]
      have queued := queuedFor_notifyAlike (.broken g (s.group g).generation .memberLost) m
        ((s.group g).arrivals.filter (·.link ≠ n)) s
      rw [if_pos gathers, if_pos member]
      rw [List.filter_filter] at queued
      have same : (s.group g).arrivals.filter (fun a => decide (a.link = m) && decide (a.link ≠ n)) =
          (s.group g).arrivals.filter (fun a => decide (a.link ≠ n ∧ a.link = m)) :=
        List.filter_congr fun a _ => by rw [Bool.decide_and, Bool.and_comm]
      rw [same] at queued
      exact queued
  · have quiet : ((s.groupDef g).has n && (s.group g).gathering) = false := by simp [member]
    rw [quiet, if_neg member]
    exact queuedFor_refl s m

theorem queuedFor_depart (n m : LinkNo) (s : State) : QueuedFor s (depart n s) m (brokenNotices s n m) := by
  refine queuedFor_foldl_groups (notices := brokenOf n m) (queuedFor_departGroup n m) (fun t g h other => ?_)
    (List.finRange 8) (List.nodup_finRange 8) s
  have frame := roundFrame_departGroup n g t
  have groupDef : (departGroup n t g).groupDef h = t.groupDef h := congrArg (·.groups.get h) frame.profile
  rw [brokenOf, brokenOf, groupDef, frame.groups h (Ne.symm other)]

/-! ### A failure end -/

theorem brokenNotices_congr {s t : State} (groups : t.groups = s.groups) (profile : t.profile = s.profile) (n m : LinkNo) :
    brokenNotices t n m = brokenNotices s n m := by
  unfold brokenNotices State.group State.groupDef
  rw [groups, profile]

theorem scanMove_congr {s v w : State} {x y : RecState} (uptime : v.uptime = s.uptime) (clkin : v.clkin = s.clkin)
    (tokens : v.tokens = s.tokens) (h : ScanMove v w x y) : ScanMove s w x y := by
  have armed (limit : Option Nat) : holdArmed v limit = holdArmed s limit := by
    rw [holdArmed, holdArmed, uptime, clkin]
  cases h with
  | grantWaiter o b m g d h k above within =>
    rw [armed]
    exact .grantWaiter o b m g d h k (tokens ▸ above) within
  | grantConverter o b k₀ g d h k above within => exact .grantConverter o b k₀ g d h k (tokens ▸ above) within
  | fire o b g d => exact .fire o b g d

/-- A scan that begins once some records are freed moves the others as it would have. -/
theorem staysOr_of_scan {s v w : State} (scan : ScanEffect v w) (control : SameControl s v) (tokens : v.tokens = s.tokens)
    {i : RecNo} (record : v.record i = s.record i) : StaysOr (ScanMove s w) (s.record i) (w.record i) := by
  rw [← record]
  obtain ⟨-, -, -, -, uptime, clkin, -⟩ := control
  exact staysOr_imp (scan.records i) fun x y move => scanMove_congr uptime clkin tokens move

/-- A record that no request waits on is left alone by the scan. -/
theorem ScanEffect.record_of_idle {v w : State} (scan : ScanEffect v w) {i : RecNo}
    (idle : waitsUnder i (v.record i).state = none) : w.record i = v.record i := by
  rcases scan.records i with same | ⟨move, -⟩
  · exact same
  · revert idle move
    cases (v.record i).state with
    | free => exact fun _ move => by cases move
    | held => exact fun _ move => by cases move
    | waiting => exact fun idle => by cases idle
    | converting => exact fun idle => by cases idle
    | watching => exact fun idle => by cases idle

/-- What a scan tells of the records of a link that the event before it has not touched. -/
theorem scanNotices_of_scan {s v w : State} {m : LinkNo} {scan : List OutEntry} (notices : ScanNotices v w m scan)
    (record : ∀ i, (s.record i).state.owner = some m ∨ (v.record i).state.owner = some m → v.record i = s.record i) :
    ScanNotices s w m scan := by
  obtain ⟨about, complete⟩ := notices
  have old {i : RecNo} {e : OutEntry} (told : ScanNotice v w m i e) : ScanNotice s w m i e := by
    obtain ⟨x, waits, tag, adopts, what⟩ := told
    have same := record i (.inr (owner_of_waitsUnder waits))
    have handle : v.handle i = s.handle i := by rw [State.handle, State.handle, same]
    refine ⟨x, by rw [← same]; exact waits, tag, adopts, ?_⟩
    rw [← handle]
    exact what
  refine ⟨fun e listed => ?_, fun i owner moved => ?_⟩
  · obtain ⟨i, told⟩ := about e listed
    exact ⟨i, old told⟩
  · have same := record i (.inl owner)
    obtain ⟨e, listed, told⟩ := complete i (by rw [same]; exact owner) (by rw [same]; exact moved)
    exact ⟨e, listed, old told⟩

theorem owner_freedOf_other {l m : LinkNo} (other : m ≠ l) {r : Record}
    (owner : r.state.owner = some m ∨ (freedOf l r).state.owner = some m) : freedOf l r = r := by
  unfold freedOf at owner ⊢
  split
  · rename_i mine
    rw [if_pos mine] at owner
    rcases owner with owner | owner
    · exact absurd (Option.some.inj (owner.symm.trans mine)) other
    · cases owner
  · rfl

/-- The lock engine's and the barrier unit's part of a failure end, after an event that has touched link `n` alone and dropped
its tags; link `n` itself is told nothing further. -/
theorem failureEnded_of_touched {n : LinkNo} {s u : State} (control : SameControl s u) (pool : u.pool = s.pool)
    (groups : u.groups = s.groups) (others : ∀ m, m ≠ n → u.session m = s.session m ∧ u.link m = s.link m)
    (tags : (u.session n).tags = []) : FailureEnded n s (failureEnd n u) ∧ (failureEnd n u).link n = u.link n ∧
      ((failureEnd n u).session n).state = (u.session n).state := by
  have states := (works_failureEnd n u).state
  obtain ⟨-, waitList, watchList, tokens_u⟩ := (State.pool_eq_iff s u).1 pool
  have record_u (i : RecNo) : u.record i = s.record i := congrArg (·.get i) (records_of_pool pool)
  obtain ⟨v, def_v⟩ : ∃ v, v = freeOwned freeRecord n u := ⟨_, rfl⟩
  have frame := freeOwned_frame n u
  have record_v := record_freeOwned (freeOne := freeRecord) (l := n) (fun _ _ _ => rfl) u
  have ended : failureEnd n u = depart n (grantScan v) := by rw [def_v]; rfl
  rw [← def_v] at frame record_v
  obtain ⟨control_v, sessions_v, tokens_v, links_v, groups_v⟩ := frame
  have scan := grantScan_effect v
  obtain ⟨w, def_w⟩ : ∃ w, w = grantScan v := ⟨_, rfl⟩
  rw [← def_w] at ended scan
  have control_sv := sameControl_trans control control_v
  have tokens_sv : v.tokens = s.tokens := tokens_v.trans tokens_u
  have record_sv (i : RecNo) : v.record i = freedOf n (s.record i) := by rw [record_v, record_u]
  have control_w := sameControl_trans control_sv scan.control
  have groups_w := scan.groups.trans (groups_v.trans groups)
  have idle (i : RecNo) (x : OpenTag) : waitsUnder i (v.record i).state ≠ some (n, x) := fun waits => by
    have owner := owner_of_waitsUnder waits
    rw [record_sv] at owner
    exact owner_freedOf n _ owner
  obtain ⟨link_w, -, tags_w⟩ := scan.untold idle
  have pool_t := (State.pool_eq_iff w (depart n w)).1 (pool_depart n w)
  obtain ⟨-, -, -, tokens_t⟩ := pool_t
  have record_t (i : RecNo) : (depart n w).record i = w.record i :=
    congrArg (·.get i) (records_of_pool (pool_depart n w))
  obtain ⟨control_t, -, -⟩ := (works_depart n w).frame
  obtain ⟨link_t, session_t⟩ := sameAccount_depart n w
  have tokens_st : s.tokens ≤ (depart n w).tokens := by rw [tokens_t, ← tokens_sv]; exact scan.tokens
  rw [ended] at states ⊢
  refine ⟨⟨sameControl_trans control_w control_t, tokens_st, fun i owner => ?_, fun i other => ?_, fun g => ?_, ?_,
    fun m other => ?_⟩, ?_, states n⟩
  · have freed_v : v.record i = freed (s.record i) := by rw [record_sv, freedOf, if_pos owner]
    rw [record_t, scan.record_of_idle (by rw [freed_v]; rfl), freed_v]
  · rw [record_t]
    have same : v.record i = s.record i := by rw [record_sv, freedOf, if_neg other]
    exact staysOr_imp (staysOr_of_scan scan control_sv tokens_sv same) fun x y move =>
      scanMove_mono move (by rw [tokens_t]; exact BitVec.le_refl _)
  · have group : w.group g = s.group g := congrArg (·.get g) groups_w
    have groupDef : w.groupDef g = s.groupDef g := congrArg (·.groups.get g) (profile_of_sameControl control_w)
    rw [group_depart, group, groupDef]
  · rw [session_t, tags_w, (sessions_v n).2, tags]
  · obtain ⟨notices, told, queued⟩ := scan.notices m
    obtain ⟨session, link⟩ := others m other
    have begun : QueuedFor s v m [] := queuedFor_of_same ((congrArg (·.get m) links_v).trans link)
      ((sessions_v m).1.trans (by rw [session])) ((sessions_v m).2.trans (by rw [session]))
    refine ⟨notices, ?_, ?_⟩
    · have scanned : ScanNotices s w m notices := scanNotices_of_scan told fun i owner => by
        rw [record_sv] at owner ⊢
        exact owner_freedOf_other other owner
      exact ⟨fun e listed => (scanned.1 e listed).imp fun i about => scanNotice_of_record about (record_t i),
        fun i owner moved => (scanned.2 i owner (by rw [← record_t]; exact moved)).imp fun e ⟨listed, about⟩ =>
          ⟨listed, scanNotice_of_record about (record_t i)⟩⟩
    · have all := queuedFor_trans (queuedFor_trans begun queued) (queuedFor_depart n m w)
      rw [List.nil_append, brokenNotices_congr groups_w (profile_of_sameControl control_w)] at all
      exact all
  · rw [link_t, link_w]
    exact congrArg (·.get n) links_v

/-! ### Lapses and breaks -/

/-- What a lapse leaves: the session LAPSED, the queue flushed but for ENDED, and the failure end (R114, R156). -/
theorem lapse_ends (n : LinkNo) (cause : EndCause) (s : State) : FailureEnded n s (lapse n cause s) ∧
    ((lapse n cause s).session n).state = .lapsed ∧ (lapse n cause s).link n = { flushedUnit (s.settings n) (s.link n) with
      outbound := survivors (s.link n) ++ [{ tag := 0, msg := .ended cause, adopts := false }], reserved := 0 } := by
  obtain ⟨control, pool, groups⟩ := lapseBegun_frame n cause s
  have session := (lapseBegun_session n cause s n).trans (if_pos rfl)
  have link := (lapseBegun_link n cause s n).trans (if_pos rfl)
  obtain ⟨ended, link', state⟩ := failureEnded_of_touched control pool groups (fun m other => by
    rw [lapseBegun_session, lapseBegun_link, if_neg (Ne.symm other), if_neg (Ne.symm other)]
    exact ⟨rfl, rfl⟩) (by rw [session])
  rw [lapse_eq]
  exact ⟨ended, state.trans (by rw [session]), link'.trans link⟩

/-- Settles O9: the lapse begins at the link alone, and what follows is the failure end. -/
theorem leaseExpiryLapsesSession : Obligations.LeaseExpiryLapsesSession := by
  intro l d e s high state due
  obtain ⟨ended, lapsed, link⟩ := lapse_ends l .lapsed s
  obtain ⟨-, -, intake, counters, transmitter⟩ := flushedUnit_fields (s.settings l) (s.link l)
  have armed : (s.session l).leaseDeadline = some d := by rw [Session.leaseDeadline, state]
  have expires : s.expires (s.session l).leaseDeadline = true := armed ▸ expires_of_reached s d high due
  refine ⟨lapse l .lapsed s, ?_, ended, lapsed, ?_⟩
  · show execLeaseDeadlineExpiry l s = _
    rw [execLeaseDeadlineExpiry, if_pos expires]
  · rw [link]
    exact ⟨rfl, rfl, intake, counters, transmitter⟩

/-- Settles O48: an EVICT is a lapse of another link's session. -/
theorem evictLapsesSession : Obligations.EvictLapsesSession := by
  intro l n tag target s t serves target_n other is_open
  obtain ⟨ended, lapsed, link⟩ := lapse_ends n .evicted t
  obtain ⟨taken, -, -, manages, -⟩ := id serves
  have management : t.management = some l := by
    obtain ⟨rest, turn, _, _, _, _, rfl⟩ := taken
    exact manages rfl
  have found : linkOf (byteAt [target] 0) = some n := (linkOf_eq_some_iff target n).2 target_n
  have open_t : (t.session n).isOpen = true := by rw [session_takesFrame taken]; exact is_open
  refine ⟨lapse n .evicted t, exec_served rfl serves ?_, ended, lapsed, ?_, by rw [link]⟩
  · show evict l tag [target] t = _
    have differs : t.management ≠ some n := by
      rw [management]
      exact fun same => other (Option.some.inj same).symm
    rw [evict, found]
    dsimp only
    rw [if_neg differs, if_neg (by rw [open_t]; decide)]
    rfl
  · rw [link]
    have same : survivors (t.link n) = survivors (s.link n) := by
      obtain ⟨rest, unit⟩ := link_takesFrame_fields taken n
      rw [unit]
      rfl
    rw [same]

theorem abort_of_sending {baud place : Nat} {chars : List Byte} {c : Byte} (at_ : chars[place / (10 * bitPeriods baud)]? = some c) :
    (Transmitter.sending baud chars place).abort = .finishing baud c (place % (10 * bitPeriods baud)) := by
  have found : chars[place / charPeriods baud]? = some c := at_
  simp only [Transmitter.abort, found]
  rfl

theorem abort_of_not_sending {x : Transmitter} (other : ∀ b cs place, x ≠ .sending b cs place) : x.abort = x := by
  cases x with
  | idle => rfl
  | finishing => rfl
  | sending b cs place => exact absurd rfl (other b cs place)

theorem clearedUnit_receiver (p : LinkSettings) (u : LinkUnit) :
    (clearedUnit p u).receiver = .hunt ∧ (clearedUnit p u).gapTimer = .stopped ∧
      (u.outbound.any (·.adopts) = false → (clearedUnit p u).baud = u.baud ∧ (clearedUnit p u).gap = u.gap) ∧
      (u.outbound.any (·.adopts) = true → (clearedUnit p u).baud = p.baud ∧ (clearedUnit p u).gap = p.gap) := by
  unfold clearedUnit
  dsimp only
  split
  · rename_i adopts
    obtain ⟨baud, gap, -⟩ := adopted_fields p { u with
      receiver := .hunt, inCharacter := false, gapTimer := .stopped
      intake := [], outbound := [], reserved := 0, transmitter := u.transmitter.abort }
    refine ⟨?_, ?_, fun none_ => absurd adopts (by rw [none_]; decide), fun _ => ⟨baud, gap⟩⟩
    · unfold adopted
      split <;> rfl
    · unfold adopted
      split <;> rfl
  · rename_i none_
    exact ⟨rfl, rfl, fun _ => ⟨rfl, rfl⟩, fun adopts => absurd adopts none_⟩

/-- Settles O21: the link unit is cleared first; an OPEN session then ends as a failure, and any other is CLOSED. -/
theorem breakEndClearsLink : Obligations.BreakEndClearsLink := by
  intro l s high enabled
  have works : s.receives l = true := receives_of_enabled high enabled
  obtain ⟨outbound, reserved, intake, counters, transmitter⟩ := clearedUnit_fields (s.settings l) (s.link l)
  obtain ⟨receiver, gapTimer, kept, adopted_⟩ := clearedUnit_receiver (s.settings l) (s.link l)
  have next : exec (.breakEnd l) s = .next (sessionAtBreak l (clearLink l s)) := by
    show execBreakEnd l s = _
    rw [execBreakEnd, if_pos works]
  have state := (state_sessionAtBreak l l (clearLink l s)).trans (if_pos rfl)
  have cleared := clearLink_eq l s
  obtain ⟨u, def_u⟩ : ∃ u, u = sessionAtBreak l (clearLink l s) := ⟨_, rfl⟩
  have ends : u.link l = clearedUnit (s.settings l) (s.link l) ∧ ((s.session l).isOpen = true → FailureEnded l s u) ∧
      ((s.session l).isOpen = false →
        u = (s.putLink l (clearedUnit (s.settings l) (s.link l))).putSession l { s.session l with state := .closed }) := by
    rw [def_u, cleared]
    cases is_open : (s.session l).isOpen with
    | true =>
      rw [sessionAtBreak_of_open (by exact is_open)]
      obtain ⟨ended, link, -⟩ := failureEnded_of_touched (n := l) (s := s)
        (u := (s.putLink l (clearedUnit (s.settings l) (s.link l))).putSession l
          { s.session l with state := .closed, tags := [] })
        ⟨rfl, rfl, rfl, rfl, rfl, rfl, rfl, rfl, rfl⟩ rfl rfl
        (fun m other => ⟨State.session_putSession_ne _ _ _ _ (Ne.symm other), State.link_putLink_ne _ _ _ _ (Ne.symm other)⟩)
        (by rw [State.session_putSession_self])
      exact ⟨link.trans (State.link_putLink_self ..), fun _ => ended, fun shut => by cases shut⟩
    | false =>
      rw [sessionAtBreak_of_shut (by exact is_open)]
      exact ⟨State.link_putLink_self .., fun open_ => (by cases open_), fun _ => rfl⟩
  rw [← def_u] at next state
  obtain ⟨link, failure, quiet⟩ := ends
  refine ⟨u, next, ?_, ?_, ?_, ?_, ?_, ?_, fun b cs place c sending at_ => ?_, fun other => ?_, state, ?_, ?_, failure,
    fun shut => ?_⟩
  · rw [link, receiver]
  · rw [link, gapTimer]
  · rw [link, intake]
  · rw [link, outbound]
  · rw [link, reserved]
  · rw [link, counters]
  · rw [link, transmitter, sending, abort_of_sending at_]
  · rw [link, transmitter, abort_of_not_sending other]
  · rw [link]; exact kept
  · rw [link]; exact adopted_
  · rw [quiet shut]
    exact ⟨⟨rfl, rfl, rfl, rfl, rfl, rfl, rfl, rfl, rfl⟩, rfl, rfl, rfl, rfl, rfl, State.session_putSession_self ..,
      fun m other => ⟨State.link_putLink_ne _ _ _ _ (Ne.symm other), State.session_putSession_ne _ _ _ _ (Ne.symm other)⟩⟩

end Sys2Proof.Machine
end


section
/-! PROOFS. The close sequence step by step: what it tells each link, which records and groups it leaves (R111, R105, R76). -/

namespace Sys2Proof.Machine

open Sys2Proof.Safety

/-! ### The open tags cancelled in order -/

/-- The CANCELLED notice of an open tag (R53, R67, R84, R101). -/
def cancelNotice (s : State) (x : OpenTag) : OutEntry :=
  { tag := x.tag, adopts := false, msg :=
    match x.ref with
    | .lockWait i | .convert i | .watch i => .cancelledRecord (s.handle i)
    | .arrival g => .cancelledArrival g (s.group g).generation }

/-- From `s` to `t` link `l` has given up requests and holdings of its own, told of it by `notices`. -/
structure GivenUp (l : LinkNo) (s t : State) (notices : List OutEntry) : Prop where
  control : SameControl s t
  tokens : t.tokens = s.tokens
  records : ∀ i, t.record i = s.record i ∨ (s.record i).state.owner = some l ∧ (t.record i = freed (s.record i) ∨
    (t.record i).state.owner = some l ∧ (t.record i).reuse = (s.record i).reuse)
  groups : ∀ g, (t.group g).generation = (s.group g).generation ∧ remaining t l g = remaining s l g
  others : ∀ m, m ≠ l → t.session m = s.session m ∧ t.link m = s.link m
  outbound : (t.link l).outbound = (s.link l).outbound ++ notices

theorem GivenUp.refl (l : LinkNo) (s : State) : GivenUp l s s [] :=
  ⟨sameControl_refl s, rfl, fun _ => .inl rfl, fun _ => ⟨rfl, rfl⟩, fun _ _ => ⟨rfl, rfl⟩, (List.append_nil _).symm⟩

theorem freed_congr {r r' : Record} (reuse : r'.reuse = r.reuse) : freed r' = freed r := by
  rw [freed, freed, reuse]

theorem GivenUp.trans {l : LinkNo} {s t u : State} {first second : List OutEntry} (h : GivenUp l s t first)
    (k : GivenUp l t u second) : GivenUp l s u (first ++ second) where
  control := sameControl_trans h.control k.control
  tokens := k.tokens.trans h.tokens
  records i := by
    rcases h.records i with same | ⟨owner, freed_ | ⟨still, reuse⟩⟩
    · rw [← same]; exact k.records i
    · refine .inr ⟨owner, .inl ?_⟩
      rcases k.records i with same | ⟨still, -⟩
      · rw [same, freed_]
      · rw [freed_] at still; cases still
    · refine .inr ⟨owner, ?_⟩
      rcases k.records i with same | ⟨-, freed_ | ⟨owned, reuse'⟩⟩
      · exact .inr (by rw [same]; exact ⟨still, reuse⟩)
      · exact .inl (freed_.trans (freed_congr reuse))
      · exact .inr ⟨owned, reuse'.trans reuse⟩
  groups g := ⟨(k.groups g).1.trans (h.groups g).1, (k.groups g).2.trans (h.groups g).2⟩
  others m other := ⟨(k.others m other).1.trans (h.others m other).1, (k.others m other).2.trans (h.others m other).2⟩
  outbound := by rw [k.outbound, h.outbound, List.append_assoc]

/-- What is written to a record of link `l`, its link unit and its session. -/
theorem givenUp_of_writes {l : LinkNo} {i : RecNo} {r : Record} {s t : State} {u : LinkUnit} {x : Session}
    {notices : List OutEntry} (records : t.records = s.records.set i r) (links : t.links = s.links.set l u)
    (sessions : t.sessions = s.sessions.set l x) (groups : t.groups = s.groups) (control : SameControl s t)
    (tokens : t.tokens = s.tokens) (owner : (s.record i).state.owner = some l)
    (left : r = freed (s.record i) ∨ r.state.owner = some l ∧ r.reuse = (s.record i).reuse)
    (outbound : u.outbound = (s.link l).outbound ++ notices) : GivenUp l s t notices := by
  have link (m : LinkNo) : t.link m = if l = m then u else s.link m := by
    rw [State.link, links]
    exact Vector.get_set_fin ..
  have session (m : LinkNo) : t.session m = if l = m then x else s.session m := by
    rw [State.session, sessions]
    exact Vector.get_set_fin ..
  have record (j : RecNo) : t.record j = if i = j then r else s.record j := by
    rw [State.record, records]
    exact Vector.get_set_fin ..
  have group (g : GroupNo) : t.group g = s.group g := congrArg (·.get g) groups
  refine ⟨control, tokens, fun j => ?_, fun g => ?_, fun m other => ?_, ?_⟩
  · rw [record]
    split
    · rename_i same; subst same; exact .inr ⟨owner, left⟩
    · exact .inl rfl
  · rw [remaining, group]; exact ⟨rfl, rfl⟩
  · rw [session, link, if_neg (Ne.symm other), if_neg (Ne.symm other)]; exact ⟨rfl, rfl⟩
  · rw [link, if_pos rfl, outbound]

/-- The cancellation of one open tag. -/
theorem givenUp_cancelEntry {l : LinkNo} {x : OpenTag} {s : State}
    (names : ∀ i, x.ref.record = some i → waitsUnder i (s.record i).state = some (l, x)) :
    GivenUp l s (cancelEntry l x s) [cancelNotice s x] := by
  obtain ⟨tag, ref⟩ := x
  have control : SameControl s (cancelEntry l { tag := tag, ref := ref } s) := (works_cancelEntry l _ s).frame.1
  cases ref with
  | arrival g =>
    have equal := withdraw_eq l tag g s
    have same : cancelEntry l { tag := tag, ref := .arrival g } s = withdraw l tag g s := rfl
    rw [same] at control ⊢
    have group (h : GroupNo) : (withdraw l tag g s).group h =
        if g = h then { s.group g with arrivals := remaining s l g } else s.group h := by
      rw [equal]; exact Vector.get_set_fin ..
    refine ⟨control, by rw [equal], fun i => .inl (by rw [equal]; rfl), fun h => ?_, fun m other => ?_, ?_⟩
    · rw [remaining, group]
      split
      · rename_i here
        subst here
        exact ⟨rfl, List.filter_eq_self.2 fun a listed => (List.mem_filter.1 listed).2⟩
      · exact ⟨rfl, rfl⟩
    · exact (sameAccount_closeTag (Ne.symm other) tag _ s).symm
    · rw [equal]
      exact congrArg LinkUnit.outbound ((Vector.get_set_fin ..).trans (if_pos rfl))
  | lockWait i =>
    rcases state_of_waitsUnder (names i rfl) with ⟨b, n, w, h, state, ref⟩ | ⟨b, t, w, h, state, ref⟩ | ⟨b, w, state, ref⟩
    · have equal := endLockWait_eq i .cancelledRecord l b n tag w h s state
      have same : cancelEntry l { tag := tag, ref := .lockWait i } s = endLockWait i .cancelledRecord s := rfl
      rw [same, equal] at control ⊢
      exact givenUp_of_writes rfl rfl rfl rfl control rfl (by rw [state]; rfl) (.inl rfl) rfl
    · cases ref
    · cases ref
  | convert i =>
    rcases state_of_waitsUnder (names i rfl) with ⟨b, n, w, h, state, ref⟩ | ⟨b, t, w, h, state, ref⟩ | ⟨b, w, state, ref⟩
    · cases ref
    · have equal := endConversion_eq i .cancelledRecord l b t tag w h s state
      have same : cancelEntry l { tag := tag, ref := .convert i } s = endConversion i .cancelledRecord s := rfl
      rw [same, equal] at control ⊢
      exact givenUp_of_writes rfl rfl rfl rfl control rfl (by rw [state]; rfl) (.inr ⟨rfl, rfl⟩) rfl
    · cases ref
  | watch i =>
    rcases state_of_waitsUnder (names i rfl) with ⟨b, n, w, h, state, ref⟩ | ⟨b, t, w, h, state, ref⟩ | ⟨b, w, state, ref⟩
    · cases ref
    · cases ref
    · have equal := endWatch_eq i .cancelledRecord l b tag w s state
      have same : cancelEntry l { tag := tag, ref := .watch i } s = endWatch i .cancelledRecord s := rfl
      rw [same, equal] at control ⊢
      exact givenUp_of_writes rfl rfl rfl rfl control rfl (by rw [state]; rfl) (.inl rfl) rfl

/-- A tag that is still open is told what it would have been told before. -/
theorem GivenUp.notice_eq {l : LinkNo} {s t : State} {notices : List OutEntry} (h : GivenUp l s t notices) {x : OpenTag}
    (names : ∀ i, x.ref.record = some i → waitsUnder i (t.record i).state = some (l, x)) :
    cancelNotice t x = cancelNotice s x := by
  have handle (i : RecNo) (ref : x.ref.record = some i) : t.handle i = s.handle i := by
    have waits := names i ref
    rcases h.records i with same | ⟨-, freed_ | ⟨-, reuse⟩⟩
    · rw [State.handle, State.handle, same]
    · rw [freed_] at waits; cases waits
    · rw [State.handle, State.handle, reuse]
  obtain ⟨tag, ref⟩ := x
  cases ref with
  | arrival g => simp only [cancelNotice, (h.groups g).1]
  | lockWait i => simp only [cancelNotice, handle i rfl]
  | convert i => simp only [cancelNotice, handle i rfl]
  | watch i => simp only [cancelNotice, handle i rfl]

theorem givenUp_cancelEntries {l : LinkNo} {live : Bool} {extra room : Nat} (list : List OpenTag) {s : State}
    (tags : (s.session l).tags = list) (account : AccountSound s l live extra room) (arrival : ArrivalSound s l)
    (rounds : RoundsSound s) :
    GivenUp l s (list.foldl (fun t x => cancelEntry l x t) s) (list.map (cancelNotice s)) := by
  induction list generalizing s with
  | nil => exact .refl l s
  | cons x rest ih =>
    have listed : x ∈ (s.session l).tags := tags ▸ List.mem_cons_self ..
    obtain ⟨upholds, left⟩ := cancelEntry_keeps listed account arrival
    rw [tags, filter_tag_of_nodup (tags ▸ account.distinct)] at left
    obtain ⟨account', arrival'⟩ := upholds.links rounds l _ _ _ account arrival
    have first := givenUp_cancelEntry (account.names x listed)
    have all := first.trans (ih left account' arrival' (upholds.rounds rounds))
    have same : rest.map (cancelNotice (cancelEntry l x s)) = rest.map (cancelNotice s) :=
      List.map_congr_left fun y member => first.notice_eq (account'.names y (left ▸ member))
    rw [same] at all
    exact all

/-! ### The groups re-tested (R105) -/

/-- What the re-test looks at in a group: its definition, its round and which sessions are OPEN. -/
def retestView (s : State) (g : GroupNo) : GroupDef × Group × (LinkNo → Bool) :=
  (s.groupDef g, s.group g, fun m => (s.session m).isOpen)

/-- A gathering round in mode ALL of a group with member `l`, in which every live member has arrived. -/
def passes (l : LinkNo) (v : GroupDef × Group × (LinkNo → Bool)) : Prop :=
  v.1.mode = .all ∧ v.1.has l = true ∧ v.2.1.arrivals ≠ [] ∧
    ∀ m, v.1.has m = true → v.2.2 m = true → ∃ a ∈ v.2.1.arrivals, a.link = m

theorem retestGroup_of_passes {l : LinkNo} {s : State} {g : GroupNo} (h : passes l (retestView s g)) :
    retestGroup l s g = passRound g (s.group g).arrivals.length s := by
  obtain ⟨mode, member, gathers, arrived⟩ := h
  have all : s.allArrived g none = true := (allArrived_iff s g none).2 fun m live => by
    obtain ⟨has, is_open⟩ := Bool.and_eq_true_iff.1 live
    exact .inl (arrived m has is_open)
  have mode : (s.groupDef g).mode = .all := mode
  have member : (s.groupDef g).has l = true := member
  have gathers : (s.group g).gathering = true := decide_eq_true gathers
  simp only [retestGroup, mode, member, gathers, all, decide_true, Bool.and_self, if_true]

theorem retestGroup_of_not_passes {l : LinkNo} {s : State} {g : GroupNo} (h : ¬ passes l (retestView s g)) :
    retestGroup l s g = s := by
  refine if_neg fun test => h ?_
  simp only [Bool.and_eq_true, decide_eq_true_eq] at test
  obtain ⟨⟨⟨mode, member⟩, gathers⟩, all⟩ := test
  refine ⟨mode, member, of_decide_eq_true gathers, fun m has is_open => ?_⟩
  rcases (allArrived_iff s g none).1 all m (Bool.and_eq_true_iff.2 ⟨has, is_open⟩) with arrived | none_
  · exact arrived
  · cases none_

open Classical in
/-- The group after its re-test. -/
noncomputable def retested (l : LinkNo) (v : GroupDef × Group × (LinkNo → Bool)) : GroupDef × Group × (LinkNo → Bool) :=
  (v.1, if passes l v then { generation := v.2.1.generation + 1, arrivals := [] } else v.2.1, v.2.2)

theorem retestView_passRound (g : GroupNo) (count : Nat) (s : State) (h : GroupNo) : retestView (passRound g count s) h =
    if g = h then ((retestView s g).1, { generation := (s.group g).generation + 1, arrivals := [] }, (retestView s g).2.2)
    else retestView s h := by
  have profile : (passRound g count s).profile = s.profile := profile_notifyArrivals _ _ _ s
  have groupDef : (passRound g count s).groupDef h = s.groupDef h := congrArg (·.groups.get h) profile
  have opens : (fun m => ((passRound g count s).session m).isOpen) = fun m => (s.session m).isOpen :=
    funext (isOpen_eq_of_states (works_passRound g count s).state)
  rw [retestView, groupDef, group_passRound, opens]
  split
  · rename_i here; subst here; rfl
  · rfl

theorem retestView_retestGroup (l : LinkNo) (s : State) (g h : GroupNo) : retestView (retestGroup l s g) h =
    if g = h then retested l (retestView s g) else retestView s h := by
  by_cases pass : passes l (retestView s g)
  · rw [retestGroup_of_passes pass, retestView_passRound, retested, if_pos pass]
    rfl
  · rw [retestGroup_of_not_passes pass, retested, if_neg pass]
    split
    · rename_i here; subst here; rfl
    · rfl

theorem group_of_retestView {s : State} {g : GroupNo} {v : GroupDef × Group × (LinkNo → Bool)} (h : retestView s g = v) :
    s.group g = v.2.1 := by
  rw [← h]
  rfl

theorem group_retest {l : LinkNo} {s : State} (g : GroupNo) :
    (passes l (retestView s g) →
      (retest l s).group g = { generation := (s.group g).generation + 1, arrivals := [] }) ∧
    (¬ passes l (retestView s g) → (retest l s).group g = s.group g) := by
  have each := foldl_each retestView (retestGroup l) (retested l) (retestView_retestGroup l) (List.finRange 8)
    (List.nodup_finRange 8) s g
  rw [if_pos (List.mem_finRange g), ← retest] at each
  rw [group_of_retestView each, retested]
  exact ⟨fun pass => if_pos pass, fun pass => if_neg pass⟩

open Classical in
/-- The PASSED notices that the re-test of one group queues for one link (R105). -/
noncomputable def passedOf (l m : LinkNo) (s : State) (g : GroupNo) : List OutEntry :=
  if passes l (retestView s g) then
    ((s.group g).arrivals.zipIdx.filter (·.1.link = m)).map fun x =>
      { tag := x.1.tag, adopts := false
        msg := .passed g (s.group g).generation (x.2 + 1) (s.group g).arrivals.length }
  else []

theorem map_filter_zipIdx_succ (list : List Arrival) (rank : Nat) (p : Arrival → Bool) (f : Arrival → Nat → OutEntry) :
    ((list.zipIdx (rank + 1)).filter (fun x => p x.1)).map (fun x => f x.1 x.2) =
      ((list.zipIdx rank).filter (fun x => p x.1)).map fun x => f x.1 (x.2 + 1) := by
  rw [List.zipIdx_succ, List.filter_map, List.map_map]
  rfl

theorem queuedFor_retestGroup (l m : LinkNo) (s : State) (g : GroupNo) :
    QueuedFor s (retestGroup l s g) m (passedOf l m s g) := by
  by_cases pass : passes l (retestView s g)
  · have queued := queuedFor_notifyArrivals
      (fun rank => .passed g (s.group g).generation rank (s.group g).arrivals.length) m 1 (s.group g).arrivals s
    have same := map_filter_zipIdx_succ (s.group g).arrivals 0 (fun a => decide (a.link = m)) fun a rank =>
      { tag := a.tag, msg := .passed g (s.group g).generation rank (s.group g).arrivals.length, adopts := false }
    rw [retestGroup_of_passes pass, passedOf, if_pos pass]
    exact same ▸ queued
  · rw [retestGroup_of_not_passes pass, passedOf, if_neg pass]
    exact queuedFor_refl s m

theorem queuedFor_retest (l m : LinkNo) (s : State) :
    QueuedFor s (retest l s) m ((List.finRange 8).flatMap (passedOf l m s)) := by
  refine queuedFor_foldl_groups (queuedFor_retestGroup l m) (fun t g h other => ?_) (List.finRange 8)
    (List.nodup_finRange 8) s
  have view : retestView (retestGroup l t g) h = retestView t h := by rw [retestView_retestGroup, if_neg other]
  have group : (retestGroup l t g).group h = t.group h := group_of_retestView view
  rw [passedOf, passedOf, view, group]

end Sys2Proof.Machine
end


section
/-! PROOFS. CLOSE of an OPEN session (R111, R105, R76). -/

namespace Sys2Proof.Machine

open Sys2Proof.Safety

/-! ### The holdings freed -/

theorem givenUp_freeOwned (l : LinkNo) (s : State) : GivenUp l s (freeOwned freeHolding l s) [] := by
  refine freeOwned_induct (GivenUp l s · []) freeHolding l (fun t i h owner => h.trans (second := []) ?_) s (.refl l s)
  rw [freeHolding_eq i l t owner]
  exact givenUp_of_writes rfl rfl rfl rfl ⟨rfl, rfl, rfl, rfl, rfl, rfl, rfl, rfl, rfl⟩ rfl owner (.inl rfl)
    (List.append_nil _).symm

/-- Once every record of link `l` is freed, each that it had is FREE with its reuse count raised once. -/
theorem GivenUp.record_freed {l : LinkNo} {s t : State} {notices : List OutEntry} (h : GivenUp l s t notices) (i : RecNo) :
    ((s.record i).state.owner = some l → freedOf l (t.record i) = freed (s.record i)) ∧
    ((s.record i).state.owner ≠ some l → freedOf l (t.record i) = s.record i) := by
  rcases h.records i with same | ⟨owner, freed_ | ⟨still, reuse⟩⟩
  · rw [same]
    exact ⟨fun owner => if_pos owner, fun other => if_neg other⟩
  · refine ⟨fun _ => ?_, fun other => absurd owner other⟩
    rw [freed_]
    exact if_neg fun none_ => by cases none_
  · refine ⟨fun _ => ?_, fun other => absurd owner other⟩
    rw [freedOf, if_pos still, freed_congr reuse]

/-! ### Which rounds complete -/

theorem completesAtClose_iff {l : LinkNo} {s p : State} {g : GroupNo} (groupDef : p.groupDef g = s.groupDef g)
    (arrivals : (p.group g).arrivals = remaining s l g)
    (opens : ∀ m, (p.session m).isOpen = true ↔ m ≠ l ∧ (s.session m).isOpen = true) :
    passes l (retestView p g) ↔ CompletesAtClose s l g := by
  show ((p.groupDef g).mode = .all ∧ (p.groupDef g).has l = true ∧ (p.group g).arrivals ≠ [] ∧
    ∀ m, (p.groupDef g).has m = true → (p.session m).isOpen = true → ∃ a ∈ (p.group g).arrivals, a.link = m) ↔ _
  rw [groupDef, arrivals]
  refine and_congr_right fun _ => and_congr_right fun _ => and_congr_right fun _ => ⟨fun all m other live => ?_,
    fun all m has is_open => ?_⟩
  · obtain ⟨has, is_open⟩ := Bool.and_eq_true_iff.1 live
    exact all m has ((opens m).2 ⟨other, is_open⟩)
  · obtain ⟨other, is_open⟩ := (opens m).1 is_open
    exact all m other (Bool.and_eq_true_iff.2 ⟨has, is_open⟩)

theorem passedNotices_eq {l m : LinkNo} {s p : State}
    (passing : ∀ g, passes l (retestView p g) ↔ CompletesAtClose s l g)
    (groups : ∀ g, p.group g = { generation := (s.group g).generation, arrivals := remaining s l g }) :
    (List.finRange 8).flatMap (passedOf l m p) = passedNotices s l m := by
  rw [passedNotices, List.flatMap_def, List.flatMap_def]
  refine congrArg List.flatten (List.map_congr_left fun g _ => ?_)
  by_cases completes : CompletesAtClose s l g
  · rw [passedOf, if_pos ((passing g).2 completes), if_pos completes, groups]
  · rw [passedOf, if_neg (mt (passing g).1 completes), if_neg completes]

/-! ### The whole sequence -/

/-- What the close sequence of link `l` leaves, up to the reply: its requests CANCELLED in order, its records FREE, the rounds
that it no longer holds up completed, and one scan for the others (R111). -/
structure ClosedBy (l : LinkNo) (s u : State) : Prop where
  control : SameControl s u
  tokens : s.tokens ≤ u.tokens
  outbound : (u.link l).outbound = (s.link l).outbound ++ (s.session l).tags.map (cancelNotice s)
  freed : ∀ i, (s.record i).state.owner = some l → u.record i = freed (s.record i)
  others : ∀ i, (s.record i).state.owner ≠ some l → StaysOr (ScanMove s u) (s.record i) (u.record i)
  groups : ∀ g, (CompletesAtClose s l g → u.group g = { generation := (s.group g).generation + 1, arrivals := [] }) ∧
    (¬ CompletesAtClose s l g → u.group g = { generation := (s.group g).generation, arrivals := remaining s l g })
  told : ∀ m, m ≠ l → ∃ scan, ScanNotices s u m scan ∧ QueuedFor s u m (passedNotices s l m ++ scan)

/-- The state of a close sequence in which the groups are re-tested: the tags are cancelled and the session is CLOSED. -/
def closeBegun (l : LinkNo) (s : State) : State := putSessState l .closed (tagsCancelled l s)

theorem givenUp_closeBegun {l : LinkNo} {live : Bool} {extra room : Nat} {s : State}
    (account : AccountSound s l live extra room) (arrival : ArrivalSound s l) (rounds : RoundsSound s) :
    GivenUp l s (closeBegun l s) ((s.session l).tags.map (cancelNotice s)) ∧
      ((closeBegun l s).session l).tags = [] ∧ ∀ g, ∀ a ∈ ((closeBegun l s).group g).arrivals, a.link ≠ l := by
  have cancelled := givenUp_cancelEntries _ rfl account arrival rounds
  obtain ⟨upholds, empty⟩ := cancelEntries_keeps _ rfl account arrival rounds
  obtain ⟨-, arrival'⟩ := upholds.links rounds l _ _ _ account arrival
  refine ⟨{ cancelled with others := fun m other => ?_ }, (tags_putSessState ..).trans empty, fun g a listed own => ?_⟩
  · rw [closeBegun, putSessState_session_ne other]
    exact cancelled.others m other
  · have tag := arrival'.arrived g a listed own
    rw [empty] at tag
    cases tag

theorem closedBy_closeSequence {l : LinkNo} {extra room : Nat} {s : State} (account : AccountSound s l true extra room)
    (arrival : ArrivalSound s l) (rounds : RoundsSound s) : ClosedBy l s (closeSequence l s) := by
  obtain ⟨begun, tags_p, absent⟩ := givenUp_closeBegun account arrival rounds
  obtain ⟨p, def_p⟩ : ∃ p, p = closeBegun l s := ⟨_, rfl⟩
  have sequence : closeSequence l s = unreserve l (grantScan (freeOwned freeHolding l (retest l p))) := by rw [def_p]; rfl
  have opens (m : LinkNo) : (p.session m).isOpen = true ↔ m ≠ l ∧ (s.session m).isOpen = true := by
    by_cases here : m = l
    · subst here
      have shut : (p.session m).isOpen = false := by
        rw [def_p, closeBegun, session_putSessState, if_pos rfl]; rfl
      rw [shut]
      exact ⟨fun no => (by cases no), fun ⟨other, _⟩ => absurd rfl other⟩
    · rw [def_p, (begun.others m here).1]
      exact ⟨fun is_open => ⟨here, is_open⟩, fun ⟨_, is_open⟩ => is_open⟩
  rw [← def_p] at begun tags_p absent
  have group_p (g : GroupNo) : p.group g = { generation := (s.group g).generation, arrivals := remaining s l g } := by
    obtain ⟨generation, left⟩ := begun.groups g
    have all : remaining p l g = (p.group g).arrivals :=
      List.filter_eq_self.2 fun a listed => decide_eq_true (absent g a listed)
    rw [← generation, ← left, all]
  have groupDef_p (g : GroupNo) : p.groupDef g = s.groupDef g :=
    congrArg (·.groups.get g) (profile_of_sameControl begun.control)
  have passing (g : GroupNo) := completesAtClose_iff (groupDef_p g) (by rw [group_p]) opens
  have retested := group_retest (l := l) (s := p)
  have retest_frame := (works_retest l p).frame.1
  have retest_pool := pool_retest l p
  have retest_link := sameAccount_retest (l := l) absent
  have retest_told (m : LinkNo) := queuedFor_retest l m p
  obtain ⟨q, def_q⟩ : ∃ q, q = retest l p := ⟨_, rfl⟩
  rw [← def_q] at sequence retest_frame retest_pool retest_link
  simp only [← def_q] at retested retest_told
  obtain ⟨-, -, -, tokens_q⟩ := (State.pool_eq_iff p q).1 retest_pool
  have record_q (i : RecNo) : q.record i = p.record i := congrArg (·.get i) (records_of_pool retest_pool)
  have freed_r := givenUp_freeOwned l q
  have record_r := record_freeOwned (freeOne := freeHolding) (l := l) (fun _ _ => records_freeHolding) q
  have groups_r : (freeOwned freeHolding l q).groups = q.groups :=
    freeOwned_induct (fun t => t.groups = q.groups) freeHolding l
      (fun t i same owner => by rw [freeHolding_eq i l t owner]; exact same) q rfl
  obtain ⟨r, def_r⟩ : ∃ r, r = freeOwned freeHolding l q := ⟨_, rfl⟩
  rw [← def_r] at sequence freed_r groups_r
  simp only [← def_r] at record_r
  have scan := grantScan_effect r
  obtain ⟨w, def_w⟩ : ∃ w, w = grantScan r := ⟨_, rfl⟩
  rw [← def_w] at sequence scan
  have control_r : SameControl s r := sameControl_trans (sameControl_trans begun.control retest_frame) freed_r.control
  have tokens_r : r.tokens = s.tokens := (freed_r.tokens.trans tokens_q).trans begun.tokens
  have record_sr (i : RecNo) : r.record i = freedOf l (p.record i) := by rw [record_r, record_q]
  have idle (i : RecNo) (x : OpenTag) : waitsUnder i (r.record i).state ≠ some (l, x) := fun waits => by
    have owner := owner_of_waitsUnder waits
    rw [record_sr] at owner
    exact owner_freedOf l _ owner
  have link (m : LinkNo) : (unreserve l w).link m = if l = m then { w.link l with reserved := (w.link l).reserved - 1 }
      else w.link m := State.link_putLink ..
  rw [sequence]
  refine ⟨sameControl_trans control_r scan.control, tokens_r ▸ scan.tokens, ?_, fun i owner => ?_, fun i other => ?_,
    fun g => ?_, fun m other => ?_⟩
  · rw [link, if_pos rfl]
    show (w.link l).outbound = _
    rw [(scan.untold idle).1, freed_r.outbound, List.append_nil, retest_link.1, begun.outbound]
  · have after := (begun.record_freed i).1 owner
    rw [← record_sr] at after
    show w.record i = _
    rw [scan.record_of_idle (by rw [after]; rfl), after]
  · have after := (begun.record_freed i).2 other
    rw [← record_sr] at after
    exact staysOr_imp (staysOr_of_scan scan control_r tokens_r after) fun x y move => scanMove_mono move (BitVec.le_refl _)
  · have group : w.group g = q.group g := congrArg (·.get g) (scan.groups.trans groups_r)
    show (_ → w.group g = _) ∧ (_ → w.group g = _)
    rw [group, ← passing g]
    obtain ⟨completes, stays⟩ := retested g
    refine ⟨fun pass => (completes pass).trans ?_, fun quiet => (stays quiet).trans (group_p g)⟩
    rw [group_p]
  · obtain ⟨notices, told, queued⟩ := scan.notices m
    obtain ⟨session_p, link_p⟩ := begun.others m other
    obtain ⟨session_r, link_r⟩ := freed_r.others m other
    have first : QueuedFor s p m [] := queuedFor_of_same link_p (by rw [session_p]) (by rw [session_p])
    have third : QueuedFor q r m [] := queuedFor_of_same link_r (by rw [session_r]) (by rw [session_r])
    have all := queuedFor_trans (queuedFor_trans (queuedFor_trans first (retest_told m)) third) queued
    rw [List.nil_append, List.append_nil, passedNotices_eq passing group_p] at all
    have last : QueuedFor w (unreserve l w) m [] :=
      queuedFor_of_same ((link m).trans (if_neg (Ne.symm other))) rfl rfl
    have both := queuedFor_trans all last
    rw [List.append_nil] at both
    refine ⟨notices, ?_, both⟩
    refine scanNotices_of_scan told fun i owner => ?_
    rw [record_sr] at owner ⊢
    rcases owner with owner | owner
    · have after := (begun.record_freed i).2 fun mine => other (Option.some.inj (owner.symm.trans mine))
      exact after
    · have kept := owner_freedOf_other other (.inr owner)
      rw [kept] at owner ⊢
      rcases begun.records i with same | ⟨-, freed_ | ⟨mine, -⟩⟩
      · exact same
      · rw [freed_] at owner; cases owner
      · exact absurd (Option.some.inj (owner.symm.trans mine)) other

end Sys2Proof.Machine
end


section
/-! PROOFS. CLOSE of an OPEN session, with its reply (R111, R105, R76). -/

namespace Sys2Proof.Machine

open Sys2Proof.Safety

theorem queuedFor_reply {l m : LinkNo} (other : m ≠ l) (tag : Byte) (msg : Message) (s : State) :
    QueuedFor s (reply l tag msg s) m [] :=
  queuedFor_of_same ((link_reply l m tag msg s).trans (if_neg (Ne.symm other))) rfl rfl

theorem sameControl_reply (l : LinkNo) (tag : Byte) (msg : Message) (s : State) : SameControl s (reply l tag msg s) :=
  ⟨rfl, rfl, rfl, rfl, rfl, rfl, rfl, rfl, rfl⟩

/-- The dispatcher writes one link's intake queue and the rotation. -/
theorem takesFrame_frame {l : LinkNo} {f : Frame} {s t : State} (taken : TakesFrame l f s t) :
    t.uptime = s.uptime ∧ t.clkin = s.clkin ∧ t.profile = s.profile ∧ t.groups = s.groups ∧ t.pool = s.pool := by
  obtain ⟨rest, turn, -, -, -, -, rfl⟩ := taken
  exact ⟨rfl, rfl, rfl, rfl, rfl⟩

theorem closeSession_of_open {l : LinkNo} {tag : Byte} {body : List Byte} {s : State}
    (is_open : (s.session l).isOpen = true) :
    closeSession l tag body s = reply l tag .doneEmpty (closeSequence l s) := by
  obtain ⟨d, e, state⟩ := Session.isOpen_cases is_open
  simp only [closeSession, state]

theorem sessionsAgree_of_taken {l : LinkNo} {f : Frame} {s t : State} (sound : SessionsSound s) (taken : TakesFrame l f s t) :
    SessionsAgree (roomFor l 1) t := by
  obtain ⟨-, agree⟩ := (sessionsSound_iff s).1 sound
  refine (agree.takesFrame taken).mono fun m => ?_
  unfold roomFor
  split
  · exact one_le_neededEntries f.kind
  · exact le_rfl

/-- What a CLOSE leaves, before its reply. -/
theorem closedBy_of_taken {l : LinkNo} {f : Frame} {s t : State} (sound : SessionsSound s) (taken : TakesFrame l f s t)
    (is_open : (t.session l).isOpen = true) : ClosedBy l t (closeSequence l t) := by
  obtain ⟨links, rounds⟩ := sessionsAgree_of_taken sound taken
  obtain ⟨account, arrival⟩ := links l
  rw [is_open] at account
  exact closedBy_closeSequence account arrival rounds

/-- Settles O30: the close sequence, step by step, and then the reply; that the link is left without tags and reservations
follows from the agreement that every step keeps. -/
theorem closeRunsCloseSequence : Obligations.CloseRunsCloseSequence := by
  intro l tag body s t serves is_open sound
  obtain ⟨taken, -⟩ := id serves
  have session (m : LinkNo) : t.session m = s.session m := session_takesFrame taken m
  have open_t : (t.session l).isOpen = true := by rw [session]; exact is_open
  obtain ⟨record', -, tokens⟩ := pool_of_takesFrame taken
  have record (i : RecNo) : t.record i = s.record i := congrFun record' i
  obtain ⟨uptime, clkin, profile, groups, -⟩ := takesFrame_frame taken
  have group (g : GroupNo) : t.group g = s.group g := congrArg (·.get g) groups
  have groupDef (g : GroupNo) : t.groupDef g = s.groupDef g := congrArg (·.groups.get g) profile
  have handle := handle_of_takesFrame taken
  have left (g : GroupNo) : remaining t l g = remaining s l g := by rw [remaining, remaining, group]
  have completes (g : GroupNo) : CompletesAtClose t l g ↔ CompletesAtClose s l g := by
    simp only [CompletesAtClose, State.isLive, groupDef, left, session]
  have passed (m : LinkNo) : passedNotices t l m = passedNotices s l m := by
    simp only [passedNotices, completes, left, group]
  have closed := closedBy_of_taken sound taken open_t
  have next : exec (.closeSession l tag body) s = .next (reply l tag .doneEmpty (closeSequence l t)) :=
    exec_served rfl serves (closeSession_of_open (tag := tag) (body := body) open_t)
  have shut := (state_closeSequence l l t).trans (if_pos rfl)
  obtain ⟨v, def_v⟩ : ∃ v, v = closeSequence l t := ⟨_, rfl⟩
  rw [← def_v] at closed next shut
  obtain ⟨side, agree⟩ := (sessionsSound_iff s).1 sound
  obtain ⟨links, -⟩ := keptBeside_sessionsAgree.exec kept_setupAndProfile next side agree
  obtain ⟨account, -⟩ := links l
  rw [not_isOpen_of_closed (x := (reply l tag .doneEmpty v).session l) shut] at account
  refine ⟨reply l tag .doneEmpty v, next, sameControl_trans closed.control (sameControl_reply ..), tokens ▸ closed.tokens,
    shut, account.idle rfl, account.reserved_of_shut, ?_, fun i owner => ?_, fun i other => ?_, fun g => ?_,
    fun m other => ?_⟩
  · have notices : (t.session l).tags.map (cancelNotice t) = (s.session l).tags.map (cancelNotice s) := by
      rw [session]
      refine List.map_congr_left fun x _ => ?_
      simp only [cancelNotice, handle, group]
    rw [link_reply, if_pos rfl]
    show (v.link l).outbound ++ [_] = _
    rw [closed.outbound, notices, (account_of_takesFrame taken l).1]
    rfl
  · have after := closed.freed i (by rw [record]; exact owner)
    rw [record] at after
    exact after
  · have after := closed.others i (by rw [record]; exact other)
    rw [record] at after
    exact staysOr_imp after fun x y move => scanMove_congr uptime clkin tokens (scanMove_mono move (BitVec.le_refl _))
  · have after := closed.groups g
    rw [completes, group, left] at after
    exact after
  · obtain ⟨scan, notices, queued⟩ := closed.told m other
    have before : QueuedFor s t m [] := queuedFor_of_same (link_takesFrame_ne taken (Ne.symm other)) (by rw [session])
      (by rw [session])
    have all := queuedFor_trans (queuedFor_trans before queued) (queuedFor_reply other tag .doneEmpty v)
    rw [List.nil_append, List.append_nil, passed] at all
    exact ⟨scan, scanNotices_of_scan notices fun i _ => record i, all⟩

end Sys2Proof.Machine
end


section
/-! PROOFS. The rows of Table 2-3, one for each way in which an event writes a record (R17 to R19). -/

namespace Sys2Proof.Machine

open Sys2Proof.Safety

/-! ### What a row reads of the states -/

/-- A row reads the token counter and the time, and no more, of the state before and of the state after. -/
theorem tableMove_congr {c : Instr} {s s' t t' : State} {i : RecNo} {x y : RecState} (uptime : s'.uptime = s.uptime)
    (clkin : s'.clkin = s.clkin) (tokens : s'.tokens = s.tokens) (after : t'.tokens = t.tokens)
    (row : TableMove c s' t' i x y) : TableMove c s t i x y := by
  cases row with
  | byScan x y scans move =>
    exact .byScan _ _ scans (scanMove_congr uptime clkin tokens (scanMove_mono move (by rw [after]; exact BitVec.le_refl _)))
  | grantedAtOnce l g body b m limit name next less =>
    have hold : holdFrom s' limit = holdFrom s limit := by simp only [holdFrom, uptime, clkin]
    rw [after, hold]
    rw [after, tokens] at next less
    exact .grantedAtOnce l g body b m limit name next less
  | mustWait l g body b m d h name => exact .mustWait l g body b m d h name
  | mustWatch l g body b d name => exact .mustWatch l g body b d name
  | waitEnds o b m g d h name => exact .waitEnds o b m g d h name
  | downgraded o b k g h name => exact .downgraded o b k g h name
  | upgraded o b k g h name next less =>
    rw [after]
    rw [after, tokens] at next less
    exact .upgraded o b k g h name next less
  | convertMustWait o b k g d h name => exact .convertMustWait o b k g d h name
  | conversionEnds o b k g d h name => exact .conversionEnds o b k g d h name
  | holdingEnds x o holding owner name => exact .holdingEnds x o holding owner name
  | watchEnds o b g d name => exact .watchEnds o b g d name

/-! ### Events that free every record of a link, or of the pool -/

/-- Where the event clears all that link `o` owns, each of its records may return to FREE. -/
theorem tableMove_of_clears {c : Instr} {s t : State} {i : RecNo} {o : LinkNo} {x : RecState} (owner : x.owner = some o)
    (clears : Clears c o) : TableMove c s t i x .free := by
  cases x with
  | free => cases owner
  | waiting => cases owner; exact .waitEnds _ _ _ _ _ _ (.inr (.inr clears))
  | held => exact .holdingEnds _ o (fun none_ => by cases none_) owner (.inr (.inr clears))
  | converting => exact .holdingEnds _ o (fun none_ => by cases none_) owner (.inr (.inr clears))
  | watching => cases owner; exact .watchEnds _ _ _ _ (.inr (.inr clears))

theorem staysOr_freed {move : RecState → RecState → Prop} {r : Record} (row : move r.state .free) : StaysOr move r (freed r) :=
  .inr ⟨row, (if_pos rfl).symm⟩

theorem staysOr_afterReset {c : Instr} {s t : State} {i : RecNo} (clears : ∀ o, Clears c o) (r : Record) :
    StaysOr (TableMove c s t i) r r.afterReset := by
  by_cases free : r.state = .free
  · exact .inl (afterReset_of_free free)
  · rw [afterReset_of_used free]
    obtain ⟨o, owner⟩ := Option.ne_none_iff_exists'.1 fun none_ => free (free_of_owner_none none_)
    exact staysOr_freed (tableMove_of_clears owner (clears o))

/-- The records after the end of link `n`'s session: its own are FREE, and the scan may have moved the others. -/
theorem staysOr_of_ended {c : Instr} {s t : State} {n : LinkNo} (clears : Clears c n) (scans : Scans c)
    (own : ∀ i, (s.record i).state.owner = some n → t.record i = freed (s.record i))
    (others : ∀ i, (s.record i).state.owner ≠ some n → StaysOr (ScanMove s t) (s.record i) (t.record i)) (i : RecNo) :
    StaysOr (TableMove c s t i) (s.record i) (t.record i) := by
  by_cases owner : (s.record i).state.owner = some n
  · rw [own i owner]
    exact staysOr_freed (tableMove_of_clears owner clears)
  · exact staysOr_imp (others i owner) fun x y move => .byScan x y scans move

theorem staysOr_of_failureEnded {c : Instr} {s t : State} {n : LinkNo} (clears : Clears c n) (scans : Scans c)
    (ended : FailureEnded n s t) (i : RecNo) : StaysOr (TableMove c s t i) (s.record i) (t.record i) := by
  obtain ⟨-, -, own, others, -⟩ := ended
  exact staysOr_of_ended clears scans own others i

/-! ### Events that write one record -/

/-- One record is written, and no other. -/
def Rewrites (i : RecNo) (r : Record) (s t : State) : Prop := ∀ j, t.record j = if i = j then r else s.record j

theorem rewrites_of_set {i : RecNo} {r : Record} {s t : State} (records : t.records = s.records.set i r) : Rewrites i r s t := by
  intro j
  rw [State.record, records]
  exact Vector.get_set_fin ..

theorem Rewrites.staysOr {c : Instr} {i : RecNo} {r : Record} {s t : State} (rewrites : Rewrites i r s t)
    (row : StaysOr (TableMove c s t i) (s.record i) r) (j : RecNo) : StaysOr (TableMove c s t j) (s.record j) (t.record j) := by
  rw [rewrites j]
  split
  · rename_i same
    rw [← same]
    exact row
  · exact .inl rfl

/-- One record is written, to a state that the scan leaves alone, and the control state and the tokens are kept. -/
structure WritesBeforeScan (i : RecNo) (r : Record) (s v : State) : Prop where
  rewrites : Rewrites i r s v
  control : SameControl s v
  tokens : v.tokens = s.tokens
  idle : waitsUnder i r.state = none

theorem writesBeforeScan_of_set {i : RecNo} {r : Record} {s v : State} (records : v.records = s.records.set i r)
    (control : SameControl s v) (tokens : v.tokens = s.tokens) (idle : waitsUnder i r.state = none) :
    WritesBeforeScan i r s v := ⟨rewrites_of_set records, control, tokens, idle⟩

/-- With the scan after it: the record written stays as it was written, and the others the scan may move. -/
theorem WritesBeforeScan.staysOr {c : Instr} {i : RecNo} {r : Record} {s v : State} (writes : WritesBeforeScan i r s v)
    (scans : Scans c) (row : StaysOr (TableMove c s (grantScan v) i) (s.record i) r) (j : RecNo) :
    StaysOr (TableMove c s (grantScan v) j) (s.record j) ((grantScan v).record j) := by
  have scan := grantScan_effect v
  have record := writes.rewrites j
  by_cases same : i = j
  · rw [if_pos same] at record
    subst same
    rw [scan.record_of_idle (by rw [record]; exact writes.idle), record]
    exact row
  · rw [if_neg same] at record
    exact staysOr_imp (staysOr_of_scan scan writes.control writes.tokens record) fun x y move => .byScan x y scans move


theorem staysOr_endLockWait {c : Instr} {i : RecNo} {notice : Half → Message} {o : LinkNo} {b : Block} {m : Mode} {tag : Byte}
    {w : Option Instant} {h : Option Nat} {s : State} (state : (s.record i).state = .waiting o b m tag w h)
    (name : Cancels c o tag ∨ c = .lockWaitDeadlineExpiry i) (scans : Scans c) (j : RecNo) :
    StaysOr (TableMove c s (grantScan (endLockWait i notice s)) j) (s.record j)
      ((grantScan (endLockWait i notice s)).record j) := by
  have ended := endLockWait_eq i notice o b m tag w h s state
  have writes : WritesBeforeScan i (freed (s.record i)) s (endLockWait i notice s) := by
    rw [ended]
    exact writesBeforeScan_of_set rfl ⟨rfl, rfl, rfl, rfl, rfl, rfl, rfl, rfl, rfl⟩ rfl rfl
  refine writes.staysOr scans (staysOr_freed ?_) j
  rw [state]
  exact .waitEnds o b m tag w h (name.imp_right .inl)

theorem staysOr_endConversion {c : Instr} {i : RecNo} {notice : Half → Message} {o : LinkNo} {b : Block} {token : Word}
    {tag : Byte} {w : Option Instant} {h : Option Hold} {s : State}
    (state : (s.record i).state = .converting o b token tag w h)
    (name : Cancels c o tag ∨ c = .convertWaitDeadlineExpiry i) (scans : Scans c) (j : RecNo) :
    StaysOr (TableMove c s (grantScan (endConversion i notice s)) j) (s.record j)
      ((grantScan (endConversion i notice s)).record j) := by
  have ended := endConversion_eq i notice o b token tag w h s state
  have writes : WritesBeforeScan i { reuse := (s.record i).reuse, state := .held o b .shared token h } s
      (endConversion i notice s) := by
    rw [ended]
    exact writesBeforeScan_of_set rfl ⟨rfl, rfl, rfl, rfl, rfl, rfl, rfl, rfl, rfl⟩ rfl rfl
  refine writes.staysOr scans (.inr ⟨?_, rfl⟩) j
  rw [state]
  exact .conversionEnds o b token tag w h name

theorem staysOr_endWatch {c : Instr} {i : RecNo} {notice : Half → Message} {o : LinkNo} {b : Block} {tag : Byte}
    {w : Option Instant} {s : State} (state : (s.record i).state = .watching o b tag w)
    (name : Cancels c o tag ∨ c = .watchWaitDeadlineExpiry i) (scans : Scans c) (j : RecNo) :
    StaysOr (TableMove c s (grantScan (endWatch i notice s)) j) (s.record j)
      ((grantScan (endWatch i notice s)).record j) := by
  have ended := endWatch_eq i notice o b tag w s state
  have writes : WritesBeforeScan i (freed (s.record i)) s (endWatch i notice s) := by
    rw [ended]
    exact writesBeforeScan_of_set rfl ⟨rfl, rfl, rfl, rfl, rfl, rfl, rfl, rfl, rfl⟩ rfl rfl
  refine writes.staysOr scans (staysOr_freed ?_) j
  rw [state]
  exact .watchEnds o b tag w (name.imp_right .inl)

/-! ### The end of a holding -/

theorem holding_of_token {x : RecState} {token : Word} (holding : x.token = some token) :
    x.holding ≠ none ∧ ∃ o, x.owner = some o := by
  rcases RecState.holding_cases holding with ⟨o, b, m, h, rfl⟩ | ⟨o, b, g, w, h, rfl⟩
  · exact ⟨fun none_ => (by cases none_), o, rfl⟩
  · exact ⟨fun none_ => (by cases none_), o, rfl⟩

/-- A holding freed by its owner, its pending conversion concluded first (R57, R58). -/
theorem writesBeforeScan_freeHolding {i : RecNo} {token : Word} {s : State} (holding : (s.record i).state.token = some token) :
    WritesBeforeScan i (freed (s.record i)) s (freeHolding i (concludeConversion i s)) := by
  rcases RecState.holding_cases holding with ⟨o, b, m, h, state⟩ | ⟨o, b, g, w, h, state⟩
  · rw [concludeConversion_held i o b m token h s state, freeHolding_eq i o s (by rw [state]; rfl)]
    exact writesBeforeScan_of_set rfl ⟨rfl, rfl, rfl, rfl, rfl, rfl, rfl, rfl, rfl⟩ rfl rfl
  · rw [concludeConversion_converting i o b token g w h s state, freeHolding_closeTag i o g _ s (by rw [state]; rfl)]
    exact writesBeforeScan_of_set rfl ⟨rfl, rfl, rfl, rfl, rfl, rfl, rfl, rfl, rfl⟩ rfl rfl

/-- A holding revoked, its pending conversion concluded first (R70, R71). -/
theorem writesBeforeScan_revoke {i : RecNo} {token : Word} {s : State} (holding : (s.record i).state.token = some token) :
    WritesBeforeScan i (freed (s.record i)) s (revoke i (concludeConversion i s)) := by
  rcases RecState.holding_cases holding with ⟨o, b, m, h, state⟩ | ⟨o, b, g, w, h, state⟩
  · rw [concludeConversion_held i o b m token h s state, revoke_eq i o token s (by rw [state]; rfl) holding]
    exact writesBeforeScan_of_set rfl ⟨rfl, rfl, rfl, rfl, rfl, rfl, rfl, rfl, rfl⟩ rfl rfl
  · rw [concludeConversion_converting i o b token g w h s state, revoke_closeTag i o g _ token s (by rw [state]; rfl) holding]
    exact writesBeforeScan_of_set rfl ⟨rfl, rfl, rfl, rfl, rfl, rfl, rfl, rfl, rfl⟩ rfl rfl

/-- A CONVERTING record has the fields of Table 2-1. -/
theorem RecState.converting_cases {x : RecState} (converting : x.isConverting = true) :
    ∃ o b token tag w h, x = .converting o b token tag w h := by
  cases x with
  | converting o b token tag w h => exact ⟨o, b, token, tag, w, h, rfl⟩
  | free | waiting | held | watching => cases converting

/-- A WATCHING record has the fields of Table 2-1. -/
theorem RecState.watching_cases {x : RecState} (watching : x.isWatching = true) : ∃ o b tag w, x = .watching o b tag w := by
  cases x with
  | watching o b tag w => exact ⟨o, b, tag, w, rfl⟩
  | free | waiting | held | converting => cases watching

/-- The expiry of a wait, by the kind of the record. -/
theorem staysOr_expireWait {c : Instr} {i : RecNo} {s : State}
    (name : (s.record i).state.isWaiting = true ∧ c = .lockWaitDeadlineExpiry i ∨
      (s.record i).state.isConverting = true ∧ c = .convertWaitDeadlineExpiry i ∨
      (s.record i).state.isWatching = true ∧ c = .watchWaitDeadlineExpiry i) (j : RecNo) :
    StaysOr (TableMove c s (expireWait i s) j) (s.record j) ((expireWait i s).record j) := by
  rcases name with ⟨kind, rfl⟩ | ⟨kind, rfl⟩ | ⟨kind, rfl⟩
  · obtain ⟨o, b, m, g, d, h, state⟩ := RecState.waiting_cases kind
    rw [show expireWait i s = grantScan (endLockWait i .timedOutRecord s) by rw [expireWait, state]]
    exact staysOr_endLockWait state (.inr rfl) trivial j
  · obtain ⟨o, b, k, g, d, h, state⟩ := RecState.converting_cases kind
    rw [show expireWait i s = grantScan (endConversion i .timedOutRecord s) by rw [expireWait, state]]
    exact staysOr_endConversion state (.inr rfl) trivial j
  · obtain ⟨o, b, g, d, state⟩ := RecState.watching_cases kind
    rw [show expireWait i s = grantScan (endWatch i .timedOutRecord s) by rw [expireWait, state]]
    exact staysOr_endWatch state (.inr rfl) trivial j

/-- The expiry of a hold. -/
theorem staysOr_expireHold {i : RecNo} {d : Instant} {s : State} (armed : (s.record i).state.holdDeadline = some d) (j : RecNo) :
    StaysOr (TableMove (.holdDeadlineExpiry i) s (expireHold i s) j) (s.record j) ((expireHold i s).record j) := by
  obtain ⟨token, holding⟩ : ∃ token, (s.record i).state.token = some token := by
    rcases holding_of_holdDeadline armed with ⟨o, b, m, token, h, state, -⟩ | ⟨o, b, token, g, w, h, state, -⟩
    · exact ⟨token, by rw [state]; rfl⟩
    · exact ⟨token, by rw [state]; rfl⟩
  obtain ⟨holds, o, owner⟩ := holding_of_token holding
  exact (writesBeforeScan_revoke holding).staysOr (c := .holdDeadlineExpiry i) trivial (staysOr_freed (.holdingEnds _ o holds owner (.inr (.inl rfl)))) j

end Sys2Proof.Machine
end


section
/-! PROOFS. Every command but POWER_ON and UPTIME_TICK moves the records by the rows of Table 2-3 alone. -/

namespace Sys2Proof.Machine

open Sys2Proof.Safety

/-! ### Requests -/

/-- A record in use is written with its reuse count kept (R18). -/
theorem staysOr_written {move : RecState → RecState → Prop} {r : Record} {x y : RecState} (state : r.state = x) (used : y ≠ .free)
    (row : move x y) : StaysOr move r { reuse := r.reuse, state := y } :=
  .inr ⟨state ▸ row, (if_neg used).symm⟩

/-- One record's state is written, in a move of its row. -/
theorem staysOr_of_state {c : Instr} {i : RecNo} {x y : RecState} {s t : State} (records : t.records = (s.putState i y).records)
    (state : (s.record i).state = x) (used : y ≠ .free) (row : TableMove c s t i x y) (j : RecNo) :
    StaysOr (TableMove c s t j) (s.record j) (t.record j) :=
  (rewrites_of_set records).staysOr (staysOr_written state used row) j

/-- The records of the pool unwritten. -/
theorem staysOr_of_pool {c : Instr} {s t : State} (pool : t.pool = s.pool) (i : RecNo) :
    StaysOr (TableMove c s t i) (s.record i) (t.record i) := by
  obtain ⟨records, -⟩ := (State.pool_eq_iff s t).1 pool
  exact .inl (congrArg (·.get i) records)

/-- The handle of a request names one of the sender's records by its number (R21). -/
theorem number_of_named {s : State} {l : LinkNo} {handle : Nat} {i : RecNo} (named : s.named l handle = some i) :
    handle % 128 = i.val ∧ (s.record i).state.owner = some l := by
  obtain ⟨number, owner, -⟩ := (named_eq_some_iff s l handle i).1 named
  exact ⟨number.symm, owner⟩

/-- CANCEL ends what the tag names, with the scan that the lock engine runs. -/
theorem staysOr_cancel {l : LinkNo} {tag : Byte} {body : List Byte} {x : OpenTag} {s : State}
    (selects : byteAt body 0 = x.tag)
    (names : ∀ i, x.ref.record = some i → waitsUnder i (s.record i).state = some (l, x)) (j : RecNo) :
    StaysOr (TableMove (.cancel l tag body) s (scanAfterCancel x.ref (cancelEntry l x s)) j) (s.record j)
      ((scanAfterCancel x.ref (cancelEntry l x s)).record j) := by
  have name : Cancels (.cancel l tag body) l x.tag := ⟨tag, body, rfl, selects⟩
  obtain ⟨g, ref⟩ := x
  cases ref with
  | arrival g => exact .inl rfl
  | lockWait i =>
    rcases state_of_waitsUnder (names i rfl) with ⟨b, m, w, h, state, -⟩ | ⟨-, -, -, -, -, ref⟩ | ⟨-, -, -, ref⟩
    · exact staysOr_endLockWait state (.inl name) trivial j
    · cases ref
    · cases ref
  | convert i =>
    rcases state_of_waitsUnder (names i rfl) with ⟨-, -, -, -, -, ref⟩ | ⟨b, token, w, h, state, -⟩ | ⟨-, -, -, ref⟩
    · cases ref
    · exact staysOr_endConversion state (.inl name) trivial j
    · cases ref
  | watch i =>
    rcases state_of_waitsUnder (names i rfl) with ⟨-, -, -, -, -, ref⟩ | ⟨-, -, -, -, -, ref⟩ | ⟨b, w, state, -⟩
    · cases ref
    · cases ref
    · exact staysOr_endWatch state (.inl name) trivial j

/-- A request that its owner accepts, from the state that the dispatcher leaves to the state before the reply. -/
theorem Accepted.staysOr {k : ReqKind} {l : LinkNo} {tag : Byte} {body : List Byte} {s v : State} {m : Message} {adopts : Bool}
    (accepted : Accepted l tag body s k m adopts v)
    (names : ∀ x ∈ (s.session l).tags, ∀ i, x.ref.record = some i → waitsUnder i (s.record i).state = some (l, x))
    (closed : (s.session l).isOpen = true → ClosedBy l s (closeSequence l s)) (j : RecNo) :
    StaysOr (TableMove (k.command l tag body) s v j) (s.record j) (v.record j) := by
  cases accepted with
  | opens | closesLapsed | renews | linkStatus | partStatus | findsFree | queries | setsWindow | setsGroup | setsFloor | starts
    | reads => exact .inl rfl
  | arrives => exact .inl rfl
  | completes => exact staysOr_of_pool (pool_passRound ..) j
  | setsLink => exact staysOr_of_pool (pool_writeLink ..) j
  | closesOpen is_open =>
    have ends := closed is_open
    exact staysOr_of_ended (.inr (.inr (.inl ⟨tag, body, rfl⟩))) trivial ends.freed ends.others j
  | holds q mode w i fields admits free quota unspent open_ =>
    have pool := pool_reserveHold l (holdLimitOf q.hold) (issueToken
      (allocate i l (.held l (w.translate q.block) mode s.nextToken (s.armHold (holdLimitOf q.hold))) s))
    obtain ⟨records, -, -, tokens⟩ := (State.pool_eq_iff _ _).1 pool
    refine staysOr_of_state records (free_of_lowestFree free) (fun none_ => by cases none_) ?_ j
    have granted := TableMove.grantedAtOnce (c := .acquire l tag body) (s := s) (i := i) l tag body (w.translate q.block) mode
      q.hold rfl tokens (tokens ▸ lt_nextToken s unspent)
    rw [tokens, ← armHold_eq] at granted
    exact granted
  | waits q mode w i fields admits free quota room blocked =>
    have pool := pool_reserveHold l (holdLimitOf q.hold) (openTag l tag (.lockWait i)
      { allocate i l (.waiting l (w.translate q.block) mode tag (s.waitDue q.wait) (holdLimitOf q.hold)) s with
        waitList := s.waitList ++ [i] })
    obtain ⟨records, -⟩ := (State.pool_eq_iff _ _).1 pool
    exact staysOr_of_state records (free_of_lowestFree free) (fun none_ => by cases none_) (.mustWait l tag body _ _ _ _ rfl) j
  | releases i token named holding =>
    obtain ⟨number, owner⟩ := number_of_named named
    obtain ⟨holds, -⟩ := holding_of_token holding
    exact (writesBeforeScan_freeHolding holding).staysOr (c := .release l tag body) trivial
      (staysOr_freed (.holdingEnds _ l holds owner (.inl ⟨tag, body, rfl, number⟩))) j
  | downgrades i o b token hold named mode state =>
    obtain ⟨number, owner⟩ := number_of_named named
    obtain rfl : o = l := by rw [state] at owner; exact Option.some.inj owner
    have writes : WritesBeforeScan i { reuse := (s.record i).reuse, state := .held o b .shared token hold } s
        (s.putState i (.held o b .shared token hold)) :=
      writesBeforeScan_of_set rfl ⟨rfl, rfl, rfl, rfl, rfl, rfl, rfl, rfl, rfl⟩ rfl rfl
    exact writes.staysOr (c := .convert o tag body) trivial
      (staysOr_written state (fun none_ => by cases none_) (.downgraded o b token tag hold ⟨body, rfl, number, mode⟩)) j
  | upgrades i o b token hold named mode state alone unspent =>
    obtain ⟨number, owner⟩ := number_of_named named
    obtain rfl : o = l := by rw [state] at owner; exact Option.some.inj owner
    exact staysOr_of_state (y := .held o b .exclusive s.nextToken hold) (by rfl) state (fun none_ => by cases none_)
      (.upgraded o b token tag hold ⟨body, rfl, number, mode⟩ rfl (lt_nextToken s unspent)) j
  | converts i o b token hold named mode state others settled =>
    obtain ⟨number, owner⟩ := number_of_named named
    obtain rfl : o = l := by rw [state] at owner; exact Option.some.inj owner
    exact staysOr_of_state (by rfl) state (fun none_ => by cases none_)
      (.convertMustWait o b token tag (s.waitDue (ConvertReq.ofBody body).wait) hold ⟨body, rfl, number, mode⟩) j
  | cancels x found =>
    have selects : x.tag = byteAt body 0 := by simpa using List.find?_some found
    exact staysOr_cancel selects.symm (names x (List.mem_of_find?_eq_some found)) j
  | watches q w i fields admits free quota room held =>
    exact staysOr_of_state (by rfl) (free_of_lowestFree free) (fun none_ => by cases none_)
      (.mustWatch l tag body (w.translate q.block) (s.waitDue q.wait) rfl) j
  | restarts =>
    rw [show (clearGroups (clearPool (endSessions { s with service := .setup }))).record j = (s.record j).afterReset from
      record_restartedState s j]
    exact staysOr_afterReset (fun o => .inr (.inr (.inr (.inr (.inl ⟨l, tag, body, rfl⟩))))) _
  | evicts n target is_open other =>
    obtain ⟨ended, -⟩ := lapse_ends n .evicted s
    exact staysOr_of_failureEnded
      (.inr (.inr (.inr (.inl ⟨l, tag, body, rfl, (linkOf_eq_some_iff _ n).1 target⟩)))) trivial ended j

/-! ### The other events -/

/-- The session's end at the end of a break (R117). -/
theorem staysOr_sessionAtBreak (l : LinkNo) (s : State) (j : RecNo) :
    StaysOr (TableMove (.breakEnd l) s (sessionAtBreak l s) j) (s.record j) ((sessionAtBreak l s).record j) := by
  cases is_open : (s.session l).isOpen with
  | false =>
    rw [sessionAtBreak_of_shut is_open]
    exact staysOr_of_pool (pool_putSession ..) j
  | true =>
    rw [sessionAtBreak_of_open is_open]
    obtain ⟨ended, -⟩ := failureEnded_of_touched (n := l) (s := s)
      (u := s.putSession l { s.session l with state := .closed, tags := [] })
      ⟨rfl, rfl, rfl, rfl, rfl, rfl, rfl, rfl, rfl⟩ rfl rfl
      (fun m other => ⟨State.session_putSession_ne _ _ _ _ (Ne.symm other), rfl⟩) (by rw [State.session_putSession_self])
    exact staysOr_of_failureEnded (.inr (.inl rfl)) trivial ended j

/-- A row of Table 2-3 from a state with the same pool and the same time. -/
theorem staysOr_from {c : Instr} {s s' t : State} {j : RecNo} (uptime : s'.uptime = s.uptime) (clkin : s'.clkin = s.clkin)
    (pool : s'.pool = s.pool) (after : StaysOr (TableMove c s' t j) (s'.record j) (t.record j)) :
    StaysOr (TableMove c s t j) (s.record j) (t.record j) := by
  obtain ⟨records, -, -, tokens⟩ := (State.pool_eq_iff s s').1 pool
  rw [State.record, State.record, records] at after
  exact staysOr_imp after fun x y row => tableMove_congr uptime clkin tokens rfl row

theorem Event.staysOr {c : Instr} {s t : State} (event : Event s c t) (j : RecNo) :
    StaysOr (TableMove c s t j) (s.record j) (t.record j) := by
  cases event with
  | lease l d armed due high =>
    obtain ⟨ended, -⟩ := lapse_ends l .lapsed s
    exact staysOr_of_failureEnded (.inl rfl) trivial ended j
  | lockWait i state => exact staysOr_expireWait (.inl ⟨state, rfl⟩) j
  | convertWait i state => exact staysOr_expireWait (.inr (.inl ⟨state, rfl⟩)) j
  | watchWait i state => exact staysOr_expireWait (.inr (.inr ⟨state, rfl⟩)) j
  | hold i d armed => exact staysOr_expireHold armed j
  | arrival g a listed => exact staysOr_of_pool (pool_expireArrival ..) j
  | gap l works => exact staysOr_of_pool ((pool_runGapTimer ..).trans (pool_lineReturned l s)) j
  | character c l v works name => exact staysOr_of_pool (pool_endCharacter ..) j
  | stopBit l v works => exact staysOr_of_pool ((pool_endCharacter ..).trans (pool_putLink ..)) j
  | breakEnd l works =>
    have cleared := clearLink_eq l s
    exact staysOr_from (by rw [cleared]; rfl) (by rw [cleared]; rfl) (pool_clearLink l s) (staysOr_sessionAtBreak l _ j)
  | transmitStart l e rest head => exact staysOr_of_pool (pool_putLink ..) j
  | transmitted l => exact staysOr_of_pool (pool_runTransmitter ..) j
  | startEdge l => exact staysOr_of_pool ((pool_putLink ..).trans (pool_lineReturned l s)) j
  | unknownKind l kind tag body u taken => exact staysOr_of_pool ((pool_refuse ..).trans (pool_takesFrame taken)) j

/-! ### Every command -/

/-- The falling edge of RESET_N frees every record in use (R20). -/
theorem staysOr_resetNAssert {s t : State} (next : exec .resetNAssert s = .next t) (j : RecNo) :
    StaysOr (TableMove .resetNAssert s t j) (s.record j) (t.record j) := by
  have stepped : execResetNAssert s = .next t := next
  unfold execResetNAssert at stepped
  split at stepped
  · obtain rfl := Host.Outcome.next.inj stepped
    exact .inl rfl
  · obtain rfl := Host.Outcome.next.inj stepped
    rw [record_resetValues]
    exact staysOr_afterReset (fun o => .inr (.inr (.inr (.inr (.inr rfl))))) _

/-- Its rising edge leaves the pool as it is (R158). -/
theorem pool_resetNRelease {m : Fin 8} {a : Bool} {s t : State} (next : exec (.resetNRelease m a) s = .next t) :
    t.pool = s.pool := by
  rcases outcome_ite next with rfl | ⟨-, rfl⟩
  · rfl
  · exact pool_latchStraps ..

/-- Settles O49: a request from the state that the dispatcher leaves, every other event from the state itself. -/
theorem recordsMoveByTable : Obligations.RecordsMoveByTable := by
  intro c s t j power notTick sound next
  by_cases falling : c = .resetNAssert
  · subst falling
    exact staysOr_resetNAssert next j
  by_cases rising : ∃ m a, c = .resetNRelease m a
  · obtain ⟨m, a, rfl⟩ := rising
    exact staysOr_of_pool (pool_resetNRelease next) j
  have came := came_exec power falling (fun m a name => rising ⟨m, a, name⟩) next
  cases came with
  | nothing => exact .inl rfl
  | refused k l tag body u r d request taken =>
    exact staysOr_of_pool ((pool_refuse ..).trans (pool_takesFrame taken)) j
  | event t event => exact event.staysOr j
  | tick name => exact absurd name notTick
  | accepted k l tag body u m adopts v request taken pass accepted =>
    rw [command_of_request request]
    obtain ⟨links, -⟩ := sessionsAgree_of_taken sound taken
    obtain ⟨account, -⟩ := links l
    obtain ⟨uptime, clkin, -, -, pool⟩ := takesFrame_frame taken
    have moved := accepted.staysOr account.names (closedBy_of_taken sound taken) j
    exact staysOr_from uptime clkin pool (staysOr_imp moved fun x y row => tableMove_congr rfl rfl rfl (t' := v) rfl row)

end Sys2Proof.Machine
end
